-- ==== Sys2Proof/Word.lean ====
section
/-! DEFINITION. The word types of the VT-S128 model and their plainest arithmetic. Bit ranges number bit 0 as the least
significant bit (R6); a multi-byte value is held as the natural number its little-endian bytes spell. -/

namespace Sys2Proof

/-- One byte of host memory or of the NOR flash. -/
abbrev Byte := BitVec 8

/-- A 32-bit set-up register (R450). -/
abbrev W32 := BitVec 32

/-- A sparse table: key and value pairs, keys strictly rising, no entry equal to what an unlisted key reads as. -/
abbrev Tab (α : Type) := List (Nat × α)

/-- The unit of every data-plane time: one TU is 125 fs (R4). A nanosecond is 8,000 TU. -/
def tuPerNs : Nat := 8000

/-- TU in a microsecond. -/
def tuPerUs : Nat := 8000000

/-- TU in a millisecond. -/
def tuPerMs : Nat := 8000000000

/-- TU in a second: a PTU time's TU field runs from 0 to 7,999,999,999,999 (R313). -/
def tuPerSec : Nat := 8000000000000

/-- One CLK_FRAME cycle of 2 ns (R16). -/
def tuPerFrame : Nat := 16000

/-- One management tick of 250 µs (R15). -/
def tuPerTick : Nat := 2000000000

/-- One CLK_MGMT cycle of 8 ns (Table 1.3). -/
def tuPerMgmt : Nat := 64000

end Sys2Proof
end

