-- ==== Sys2Proof/Syntax.lean ====
section
/-! DEFINITION. The commands of the VT-S128: one constructor of `Instr` for each row of spec/opcode_table.json, with the
row's operands. An envelope's operands are those of Table 11.8; an event's operands are what the outside world supplies with
it (a pin's crossing time, a message's fields, what a measurement read). Times are root-clock TU since reset unless said
otherwise. -/

namespace Sys2Proof

/-- Bytes 0 to 7 of an envelope, with the ring set that carries it (R245, Table 11.7). -/
structure Hdr where
  rs : Fin 64
  prio : Fin 8
  quiet : Bool
  irq : Bool
  flow : BitVec 16
  tag : BitVec 16
  deriving DecidableEq, Repr

/-- The operands of an envelope, by opcode (Table 11.8). Numbers are the little-endian values of their fields. -/
inductive Op where
  | nop
  | stageWrite (kind count index addr bytes : Nat)
  | stageRead (form kind sect index count bytes addr : Nat)
  | check (budget addr entries : Nat)
  | commit (form : Nat) (system : Bool) (budget site mask entry secs tu : Nat)
  | abandon
  | patternLoad (base addr : Nat)
  | patternBroadcast (base addr : Nat)
  | seal (first countM1 : Nat)
  | memCopy (src dst lines : Nat)
  | run (site start input : Nat) (falling : Bool) (seg secs tu : Nat)
  | stop (site : Nat)
  | arm (site form seg : Nat)
  | streamOpen (stream : Nat)
  | streamClose (stream addr : Nat)
  | streamMark (stream : Nat) (flush noMark : Bool) (pulse : Nat)
  | measure (conv mux gain filter count : Nat) (urgent pairchk records buffer : Bool) (addr : Nat)
  | calibrate (groups phases : Nat) (store defer : Bool)
  | eyeSurvey (site levels : Nat) (levelMask : Bool) (dwell channels : Nat) (oFirst oLast : Int)
      (oStep settle bufAddr paramAddr : Nat)
  | delay (ticks : Nat)
  | fence (scope : Nat)
  | cancel (byFlow : Nat) (key : Nat)
  | clerkCall (entry : Nat) (args : List Nat)
  | cspStart (entry : Nat) (args : List Nat)
  | nvmWrite (region offset bytes addr : Nat)
  | nvmRead (region offset bytes addr : Nat)
  | imageStage (kind bytes addr : Nat)
  | imageActivate (kind : Nat)
  | attest (nonce addr bytes : Nat)
  /-- An opcode that Table 11.8 does not list: BAD_ENVELOPE (R248). -/
  | unknown (opcode : Nat)
  deriving DecidableEq, Repr

/-- Errors in a DRAM codeword as a read finds it: symbols and what is exclusive-ORed onto them (R346). -/
abbrev Errors := List (Fin 80 × BitVec 8)

/-- What the SPD of a DIMM tells (R335): a registered DIMM, device width in bits, ranks, device density in Gb. -/
structure DimmSpd where
  registered : Bool
  width : Nat
  ranks : Nat
  density : Nat
  deriving DecidableEq, Repr

/-- Which of a channel's two comparator outputs an edge is on (R49). -/
inductive Comparator where
  | ch
  | cl
  deriving DecidableEq, Repr

/-- One of the three CSP data memories, by bus (Table 10.1). -/
inductive CspMem where
  | x
  | y
  | c
  deriving DecidableEq, Repr

/-- ALU operations of the CSP (Table 10.3). -/
inductive CspAluOp where
  | add
  | sub
  | min
  | max
  | and
  | or
  | xor
  | shl
  | shr
  | select
  | cmpLt
  | cmpEq
  deriving DecidableEq, Repr

/-- What the memories' decoder found in a CSP access (R230): nothing, a single-bit error corrected in each of some 64-bit words, an
uncorrectable error. -/
inductive CspEcc where
  | clean
  | corrected (words : Nat)
  | uncorrectable
  deriving DecidableEq, Repr

/-- Move operations of the CSP (Table 10.3): vector and scalar loads and stores through a pointer, register moves, a scalar
broadcast to the lanes, and a store of an accumulator's lanes. `nop` is an empty slot, with what the word's own fetch from C memory
found (R219, R230); `undefined` is a word that is no instruction. -/
inductive CspMoveOp where
  | loadV (mem : CspMem) (ptr : Fin 8) (dst : Fin 32)
  | storeV (mem : CspMem) (ptr : Fin 8) (src : Fin 32)
  | loadS (mem : CspMem) (ptr : Fin 8) (dst : Fin 16)
  | storeS (mem : CspMem) (ptr : Fin 8) (src : Fin 16)
  | storeA (mem : CspMem) (ptr : Fin 8) (src : Fin 8)
  | moveV (dst src : Fin 32)
  | moveS (dst src : Fin 16)
  | broadcast (dst : Fin 32) (src : Fin 16)
  | setP (dst : Fin 8) (src : Fin 16)
  | setM (dst : Fin 8) (src : Fin 16)
  | setL (dst : Fin 8) (src : Fin 16)
  | setQ (dst : Fin 4) (src : Fin 16)
  | setFlags (src : Fin 16)
  | getP (dst : Fin 16) (src : Fin 8)
  | getM (dst : Fin 16) (src : Fin 8)
  | getL (dst : Fin 16) (src : Fin 8)
  | getQ (dst : Fin 16) (src : Fin 4)
  | getFlags (dst : Fin 16)
  | nop
  | undefined
  deriving DecidableEq, Repr

/-- A move of an instruction word: alone in its word, or joined to the word's next operation (R221). -/
structure CspMove where
  op : CspMoveOp
  joined : Bool
  deriving DecidableEq, Repr

/-- What the receivers of a port have found in a state of bring-up, per receive lane: the lane number read from TRAIN blocks, the
consecutive blocks with valid sync headers, and the skew in blocks (R290, R292). -/
structure LaneWork where
  numbers : List (Option (Fin 4))
  headers : List Nat
  skew : List Nat
  deriving DecidableEq, Repr

/-- Why a receiver counts a lane as failed: invalid sync headers since they were last counted, a loss of block lock (R299). -/
structure LaneFault where
  headers : Nat
  lockLost : Bool
  deriving DecidableEq, Repr

/-- A field of a control block as it arrives, with the block's check byte (R277). -/
structure Checked (α : Type) where
  val : α
  check : BitVec 8
  deriving DecidableEq, Repr

/-- The verdict of a RESULT frame and the hops that the frame has taken (R280, R330). -/
structure Relayed where
  matched : Bool
  hops : Fin 11
  deriving DecidableEq, Repr

/-- A Branch's place in the tree as ASSIGN gives it: hop count and upstream port (Table 14.1). -/
structure TreePlace where
  hops : Nat
  port : Fin 4
  deriving DecidableEq, Repr

/-- What training finds in a memory channel: the SPD contents of its two slots, and the ranks with a lane that no setting passes (R335,
R338, R339). -/
structure ChanFound where
  first : Option DimmSpd
  second : Option DimmSpd
  failed : BitVec 4
  deriving DecidableEq, Repr

/-- A write to the doorbell window: the function that writes, the ring set's page, the offset within it and the size in bytes (R233,
R242). The word's own fields are the command's: RING is its name, RING_SET and INDEX its other operands (Table 11.6). -/
structure DoorWrite where
  fn : Fin 33
  page : Fin 64
  offset : Nat
  size : Nat
  deriving DecidableEq, Repr

/-- Control transfers of the CSP (Table 10.3). -/
inductive CspBranchOp where
  | branch (target : Nat) (taken : Bool)
  | call (target : Nat)
  | ret
  deriving DecidableEq, Repr

/-- A calibration record of the log: SEQ, generation (false A), its fields by byte offset in the payload of Table 16.2 (R376, R378). -/
structure CalRecord where
  seq : Nat
  genB : Bool
  /-- The log slot that holds it, 0 to 31, the PTU seconds and BAD_BLOCKS at the store. -/
  slot : Nat
  seconds : Nat
  bad : Nat
  words : Tab Nat
  deriving DecidableEq, Repr

/-- What boot stages 2 and 3 find of the NOR flash beside its bytes, which another part on the board holds (00_scope.md): whether it
answers, log2 of its size and quad mode by its JESD216 tables, every valid calibration record that region 8 was delivered with and the
blocks mapped out; records that the device has written itself stand in its log. -/
structure BootRead where
  answers : Bool
  log2 : Fin 32
  quad : Bool
  calLog : List CalRecord
  calBad : BitVec 16
  deriving DecidableEq, Repr

/-- What a calibration phase measured (R365 to R367, R375). Internal: the codes found (block 0 to 127 a channel, 128 to 143 a replica;
byte offset in Table 16.1; code; in place, the edges it was measured from). Loopback: per
channel whether its CL input was used and the sums of 4,096 round trips in TU, rising and falling. Fixture: per channel the sign of its
first reflection and its time from the launch in TU. -/
inductive PhaseMeas where
  | internal (codes : List (Nat × Nat × Nat × Nat))
  | loopback (trips : List (Fin 128 × Bool × Nat × Nat))
  | fixture (reflections : List (Fin 128 × Bool × Int))
  deriving DecidableEq, Repr

/-- What a microword's operation fields do beside the control fields of Table 18.2; only Dispatch knows their layout
(notes/assumptions/33.md): nothing, a result into a register of its context, or a read or a write of the register bus. -/
inductive ClerkOp where
  | none
  | set (dst : Fin 16) (value : BitVec 64)
  | read (dst : Fin 16) (addr : Nat)
  | write (addr : Nat) (value : W32)
  deriving DecidableEq, Repr

/-- The commands, one constructor per row of spec/opcode_table.json, in the table's order. -/
inductive Instr where
  -- envelopes (rows 0 to 30)
  | nop (h : Hdr)
  | stageWrite (h : Hdr) (kind count index addr bytes : Nat)
  | stageRead (h : Hdr) (form kind sect index count bytes addr : Nat)
  | check (h : Hdr) (budget addr entries : Nat)
  | commit (h : Hdr) (form budget site mask entry secs tu : Nat)
  | systemCommit (h : Hdr) (budget mask secs tu : Nat)
  | abandon (h : Hdr)
  | patternLoad (h : Hdr) (base addr : Nat)
  | patternBroadcast (h : Hdr) (base addr : Nat)
  | seal (h : Hdr) (first countM1 : Nat)
  | memCopy (h : Hdr) (src dst lines : Nat)
  | run (h : Hdr) (site start input : Nat) (falling : Bool) (seg secs tu : Nat)
  | stop (h : Hdr) (site : Nat)
  | arm (h : Hdr) (site seg : Nat)
  | armHostRequest (h : Hdr) (site : Nat)
  | streamOpen (h : Hdr) (stream : Nat)
  | streamClose (h : Hdr) (stream addr : Nat)
  | streamMark (h : Hdr) (stream : Nat) (flush noMark : Bool) (pulse : Nat)
  | measure (h : Hdr) (conv mux gain filter count : Nat) (urgent pairchk records buffer : Bool) (addr : Nat)
  | calibrate (h : Hdr) (groups phases : Nat) (store defer : Bool)
  | eyeSurvey (h : Hdr) (site levels : Nat) (levelMask : Bool) (dwell channels : Nat) (oFirst oLast : Int)
      (oStep settle bufAddr paramAddr : Nat)
  | delay (h : Hdr) (ticks : Nat)
  | fence (h : Hdr) (scope : Nat)
  | cancel (h : Hdr) (byFlow key : Nat)
  | clerkCall (h : Hdr) (entry : Nat) (args : List Nat)
  | cspStart (h : Hdr) (entry : Nat) (args : List Nat)
  | nvmWrite (h : Hdr) (region offset bytes addr : Nat)
  | nvmRead (h : Hdr) (region offset bytes addr : Nat)
  | imageStage (h : Hdr) (kind bytes addr : Nat)
  | imageActivate (h : Hdr) (kind : Nat)
  | attest (h : Hdr) (nonce addr bytes : Nat)
  -- host interface (rows 31 to 46)
  | doorbellCommandProducer (door : DoorWrite) (named : Fin 64) (index : W32)
  | doorbellCompletionConsumer (door : DoorWrite) (named : Fin 64) (index : W32)
  | doorbellStreamProducer (door : DoorWrite) (named : Fin 64) (index : W32)
  | doorbellEventConsumer (door : DoorWrite) (named : Fin 64) (index : W32)
  | envelopeFetch (k : Fin 64)
  | taskDispatch (cls : Fin 9)
  | delayDue
  | msixSignalTimeout (k : Fin 64) (ring : Fin 3)
  | ringSetEnable (k : Fin 64)
  | ringSetShutdown (k : Fin 64)
  | ringSetState (k : Fin 64)
  | ringResized (k : Fin 64) (ring : Fin 4)
  | grantApplied (site : Fin 32)
  | vfFlr (vf : Fin 33)
  /-- 0 PF FLR, 1 hot reset, 2 a loss of the link or PERST_N low. -/
  | linkReset (cause : Fin 3)
  | pcieLinkTrained (rate : Fin 4) (width : Nat) (hostFlit : Bool)
  -- sequencer (rows 47 to 58)
  | preparationComplete (site : Fin 32)
  | runEpoch (site : Fin 32)
  | vectorIssue (site : Fin 32)
  | decisionPoint (site : Fin 32)
  | passBoundary (site : Fin 32)
  /-- What the two re-reads found: both with clean ECC, the frank of each. -/
  | checkRereadComplete (site : Fin 32) (clean : Bool) (frank1 frank2 : W32)
  | prefetchFill (site : Fin 32) (errs : Errors)
  | underrun (site : Fin 32)
  | stopBoundary (site : Fin 32)
  | stopOnFail (site : Fin 32)
  | reactionBoundary (site : Fin 32)
  | drainComplete (site : Fin 32)
  -- postmarks and intervals (rows 59 to 62)
  | dutCrossing (c : Fin 128) (comp : Comparator) (asserted : Bool) (t : Nat)
  | intervalLatch (slot : Fin 64)
  | epochPairDue (isStream : Bool) (n : Fin 32)
  | tbWarm (ocxoHigh : Bool)
  -- acquisition and triggers (rows 63 to 69)
  | recordMerge (stream : Fin 16) (queue : Fin 291)
  | bagFlushTimeout (stream : Fin 16)
  | bagWrite
  /-- `line` is which of the bag's 64 lines shows errors, `errs` which; the others show none. -/
  | spillRead (line : Nat) (errs : Errors)
  | triggerEdge (input : Fin 16) (asserting : Bool) (t : Nat)
  | triggerPulseStart (line : Fin 16)
  | triggerPulseEnd (line : Fin 16)
  -- capture signal processor (rows 70 to 89)
  | cspActivationApply
  | cspIn (dst : Fin 32) (count tags : Fin 16)
  | cspOut (src : Fin 32) (lanes : Nat)
  | cspOutResume
  | cspWait (records cycles : Nat)
  | cspWaitEnd (byCycles : Bool)
  | cspHalt (code : BitVec 16)
  | cspLoop (count length : Nat)
  | cspMac (dst : Fin 8) (a b : Fin 32) (subtract q31 : Bool)
  /-- `src` is an accumulator, or with `wide` a V register of .D lanes. -/
  | cspRnd (dst : Fin 32) (wide : Bool) (src : Fin 32) (k : Fin 64)
  | cspAlu (op : CspAluOp) (wide : Bool) (dst a b : Fin 32) (q : Fin 4)
  | cspMove (move : CspMove) (found : CspEcc)
  | cspKind (q : Fin 4) (src : Fin 32) (kind : Fin 8)
  | cspFld (dst src : Fin 32) (lo : Fin 64) (width : Nat) (wide : Bool)
  | cspPack (dst src : Fin 32) (q : Fin 4) (count : Fin 16) (wide : Bool)
  | cspPrev (dst src carry : Fin 32) (count : Fin 16) (wide : Bool)
  | cspHist (src : Fin 32) (q : Fin 4) (base : Nat) (bias : Int) (bins : Nat) (wide : Bool) (found : CspEcc)
  /-- The trellis setting the program makes with the step, if any: states, branch-metric base, ring base, ring depth (R225). -/
  | cspAcs (setting : Option (Nat × Nat × Nat × Nat)) (found : CspEcc)
  | cspTrace (named : Option (Fin 64)) (length : Nat) (dst : Nat) (found : CspEcc)
  | cspBranch (op : CspBranchOp)
  -- Courier link layer (rows 90 to 107)
  | frameSend (p : Fin 4)
  | frameReceive (p : Fin 4) (frame : BitVec 2048) (laneFault : Bool)
  | ack (p : Fin 4) (stamp : Checked (BitVec 16))
  | nak (p : Fin 4) (stamp : Checked (BitVec 16))
  | credit (p : Fin 4) (vc : Fin 4) (count : Checked Nat)
  | laneDrop (p : Fin 4) (lane : Checked (Fin 4)) (t : Nat)
  | laneAdd (p : Fin 4) (lane : Checked (Fin 4)) (t : Nat)
  | markerSend (p : Fin 4) (t : Nat)
  | markerReceive (p : Fin 4) (lane : Fin 4) (content : BitVec 64) (counted : Fin 32) (fill : Int)
  | replayTimeout (p : Fin 4)
  | laneFailure (p : Fin 4) (lane : Fin 4) (t : Nat) (seen : LaneFault)
  | laneReturnTimeout (p : Fin 4) (lane : Fin 4)
  /-- The lanes of each direction that passed, the receive lanes that came inverted, and what else the receivers found. -/
  | portStateAdvance (p : Fin 4) (tx rx inverted : BitVec 4) (work : LaneWork)
  | portStateTimeout (p : Fin 4)
  | portDownRetry (p : Fin 4)
  | detectPoll (p : Fin 4) (found : BitVec 4)
  | capability (p : Fin 4) (version role clock : Nat) (deviceId : BitVec 16) (lanes : BitVec 8) (tbWarm : Bool)
      (lastDelivered : BitVec 16) (commitEpoch : W32)
  | fillerOn (p : Fin 4)
  -- hierarchy (rows 108 to 131)
  | discover (p : Fin 4) (hops : Nat) (parent : BitVec 10) (parentPort : Fin 4)
  /-- ANSWER's `hops` are those of its frame, and `flight` is the measured flight time of the parent's link, which the parent adds. -/
  | answer (p : Fin 4) (serial : BitVec 64) (role : Fin 4) (arrival : Fin 4) (needImage : Bool) (parent : BitVec 10)
      (parentPort : Fin 4) (hops : Nat) (flight : Nat)
  | assign (p : Fin 4) (id : BitVec 10) (place : TreePlace) (lsys : Nat) (perHop : Nat)
  | already (p : Fin 4) (id : BitVec 10)
  | matchTable (group : BitVec 8) (combiner : BitVec 10) (h : Nat) (inSubtree : Bool)
  | tSync (p : Fin 4) (seq : BitVec 16) (t1 t2 : Nat)
  | tReq (p : Fin 4) (seq : BitVec 16) (t3 t4 : Nat)
  /-- `walk` is how many root phase steps bring this device's grid to the path delay that the frame carries (R319). -/
  | tResp (p : Fin 4) (seq : BitVec 16) (t4 : Nat) (asym : Int) (resent naked : Bool) (walk : Int)
  | second (p : Fin 4) (secs : Nat) (rate : W32) (epoch : W32) (tbWarm : Bool) (domain : Bool) (step : Int)
  | join (group : BitVec 8) (dev : BitVec 10)
  | leave (group : BitVec 8) (dev : BitVec 10)
  | verdict (group : BitVec 8) (dev : BitVec 10) (index : BitVec 52) (matched : Bool)
  | result (group : BitVec 8) (index : BitVec 52) (verdict : Relayed)
  | prepare (secs tu : Nat) (epoch : W32)
  | ready (dev : BitVec 10)
  | refuse (dev : BitVec 10) (code : Nat)
  | go
  | abort
  | systemCommitConfirm (dev : BitVec 10)
  | voteDeadline
  | systemCommitLost
  | confirmationDeadline
  | patternData (p : Fin 4) (base : Nat) (header : Bool) (bytes : List Byte) (last : Bool)
  | bootData (p : Fin 4) (kind : Fin 3) (bytes : List Byte) (last : Bool)
  -- Courier registers (rows 132 to 141)
  | couCmdTest (p : Fin 4)
  | couCmdTestExit (p : Fin 4)
  | couCmdRetrain (p : Fin 4)
  | couCmdInjectFrank (p : Fin 4)
  | couCmdBitSlip (p : Fin 4) (lane : Fin 4)
  | couCmdInjectOnce (p : Fin 4)
  | couCtrlEnableSet (p : Fin 4)
  | couCtrlEnableClear (p : Fin 4)
  | couEyeWrite (p : Fin 4) (value : W32)
  | eyeScanDone (p : Fin 4) (mismatch : Nat)
  -- postmark time unit (rows 142 to 164)
  | ptuSecond
  | syncSecondDue
  | todOutDue
  | exchangeTimeout (p : Fin 4)
  | skewCalibration (p : Fin 4) (pathTu : Nat) (flight : Nat)
  | rootPhaseStep (up : Bool)
  | ppsEdge (t : Nat)
  | todMessage (msg : BitVec 128) (endT : Nat)
  | syncInEdge (t : Nat)
  | ptuHostOfsTuWrite (value : BitVec 64)
  | sourceLost (domain : Bool)
  | exchangeLoss
  /-- The phase step of the switch to the OCXO, in 62.5 fs. -/
  | fclkInLoss (step : Int)
  | fclkRestored
  | degraded
  | ptuCtrlSwitch
  | ptuGenCtrlArm (g : Fin 8)
  | generatorInstant (g : Fin 8)
  | ptuMatchCfgWrite (combiner : BitVec 10)
  | matchResultDeadline (group : BitVec 8)
  | matchCondition (site : Fin 32)
  | ptuTimeCapture
  | ptuTimeRelease
  -- commit and survey (rows 165 to 170)
  | commitPrepared
  | commitApply (site : Option (Fin 32))
  | peScriptPlay (g : Fin 16)
  | peScriptEnd (g : Fin 16)
  | surveySettleElapsed (site : Fin 32)
  | surveyPointEnd (site : Fin 32)
  -- memory controller (rows 171 to 183, 245)
  | trainingComplete (c0 c1 c2 c3 : ChanFound)
  | driftTrackingVisit (c : Fin 4) (rank : Fin 4) (weakLane : Bool)
  | recentreComplete (c : Fin 4) (rank : Fin 4) (sub : Fin 2) (device : Fin 10) (found : Bool) (multi : Bool)
  | mr4Poll (doubledRanks : BitVec 16)
  | dimmSensorRead (temps : List (Option Int))
  | refreshDue (c : Fin 4) (rank : Fin 4) (postpone : Bool)
  | bankIdleTimeout (c : Fin 4) (rank : Fin 4) (sub : Fin 2) (bank : Fin 32)
  | patrolScrub (line : Nat) (errs : Errors)
  | migrationStart
  | migrationComplete
  | rankRetrainComplete (c : Fin 4) (rank : Fin 4) (pass : Bool)
  | mcCmdMigrate (c : Fin 4) (rank : Fin 4)
  | mcCmdClearCounters
  -- calibration (rows 184 to 197)
  /-- `temp` is the sensor's reading in 1/64 °C where no housekeeping round has read it yet. -/
  | groupTemperatureRead (g : Fin 16) (temp : Int)
  | calOverdue (g : Fin 16)
  | stale (g : Fin 16)
  | phaseStart (g : Fin 16)
  /-- `fails` is how many read-backs fail in the store that may follow (R379). -/
  | phaseComplete (g : Fin 16) (m : PhaseMeas) (fails : Nat)
  | inPlaceRerun (g : Fin 16)
  /-- `delta` is the replica's change in the quantity as measured now, in steps (R373). -/
  | trimStep (c : Fin 128) (q : Fin 8) (delta : Int)
  | replicaOut (g : Fin 16)
  | calCmdStore (fails : Nat)
  | calCmdRestorePrev
  | calGroupCtrlSleep (g : Fin 16) (set : Bool)
  | calLoopRunSet (g : Fin 16)
  | calLoopRunClear (g : Fin 16)
  | calLoopInjectOnce (g : Fin 16)
  -- measurement converters (rows 198 to 203)
  /-- The conversion's input code before saturation, and the over-range comparator. -/
  | adcConversion (b : Bool) (code : Int) (ovr : Bool)
  | housekeepingRound
  | adcCmdRetestA
  | adcCmdRetestB
  | adcResultFreeze (pair : Fin 3)
  | adcResultRelease (pair : Fin 3)
  -- Clerk (rows 204 to 214)
  /-- The microword at the running context's program counter: its operation, whether its branch or loop is taken, the cycles it
  stalls, and how many bits of the word and of its check bits are wrong as the store gives them (R400). -/
  | clerkMicroword (op : ClerkOp) (taken : Bool) (stall : Nat) (dataErrs checkErrs : Nat)
  | clerkWait (ctx : Fin 10) (op : ClerkOp)
  | clerkEnd (ctx : Fin 10) (op : ClerkOp)
  | clerkAbort (ctx : Fin 10)
  /-- The contexts whose WAIT has ended, and the contexts of Finmund's that have a routine to start, with its entry. -/
  | contextSwitch (woken : List (Fin 10)) (started : List (Fin 6 × Fin 8192))
  | watchdogExpiry
  | customerLimitExpiry (ctx : Fin 10)
  /-- The words of bank A and of bank B with wrong bits, and how many. -/
  | controlStoreScrub (foundA foundB : List (Fin 8192 × Nat))
  | bankSwap
  | swapTimeout
  | clerkCmdAbortCustomer
  -- fault collector (rows 215 to 221)
  | faultAssertion (n : Fin 96) (detail : W32)
  | quietPeriodExpiry (n : Fin 96) (asserted : Option W32)
  | fcStickyClear (w : Fin 3) (mask : W32) (coincident : W32)
  | fcInject (n : Fin 96) (coincident : Bool)
  | fcRelease (n : Fin 96) (coincident : Bool)
  | fcSrcClrRec (n : Fin 96)
  | fcLogSel (n : Fin 64)
  -- thermal, boot and security (rows 222 to 234, 249)
  | thermWarn (temp : Int)
  | thermShutdown
  /-- The straps, and RSWING in Ω. -/
  | powerOnReset (straps : BitVec 8) (rswing : Nat)
  | supplyBrownout
  | sysResetDevice (key : BitVec 16) (bit : Bool)
  | rootPllLock (nor : BootRead)
  /-- `otpGood` is clear where an OTP field failed its check in stage 0. -/
  | bootStageTimeout (otpGood : Bool)
  | secArm (value : BitVec 16)
  | secArmExpiry
  | programRoot (slot : Fin 4) (ok : Bool)
  | revoke (slot : Fin 4) (ok : Bool)
  | advance (value : BitVec 7) (ok : Bool)
  | prodLock (ok : Bool)
  -- SMBus (rows 235 to 239)
  | smbusReadPart
  | smbusReadStatus
  | smbusReadTemperature
  | smbusReadSerial
  | alertResponse
  -- registers and the rest (rows 240 to 249)
  | sysCvCommitSeqRead
  | readClear (addr : Nat) (arriving : Nat)
  | registerWrite (fn : Fin 33) (addr size : Nat) (value : BitVec 64)
  /-- What receiving devices reported of a broadcast image, by device id, and what the decoder found in lines of a copy's source. -/
  | patternTransferComplete (task : Nat) (outcomes : List (Nat × Nat)) (found : List (Nat × Errors))
  | stagingComplete (task : Nat)
  | migrationLineCopy (errs : Errors)
  | elasticBufferOverflow (p : Fin 4)
  | checkerBitError (p : Fin 4) (lane : Fin 4)
  | msixUnmask (fn : Fin 33) (vector : Fin 128)
  | porNLow
  deriving DecidableEq, Repr

end Sys2Proof
end

