-- ==== Sys2Proof/Machine/State.lean ====
section
/-! DEFINITION. The state of the VT-S128 block as plain data: every register, queue, buffer, counter, mode and pin the spec
gives it, and the queue of commands that wait. Tables indexed by channel, site, port and the like are sparse (`Tab`): an
unlisted index reads as the record's reset value. Times are root-clock TU since device reset unless a field says otherwise. -/

namespace Sys2Proof.Machine

/-- No command of this block stops with a fault: what the spec calls a fault (a fault source, a FAULTED program, a POISONED
line) is an effect on the state. Safe: nothing raises one. -/
inductive Fault where
  deriving DecidableEq, Repr

/-- Why a command has no meaning here. -/
inductive Refusal where
  /-- Raised only by an arm of `exec` that has not been given its meaning yet. Safe: nothing follows from it. -/
  | notModelled (mnemonic : String)
  deriving DecidableEq, Repr

/-- Where an edge stands on the frame grid: the frame in which it falls, the coarse count of 500 TU steps from the frame's start, the
interpolator setting of 0 to 499 TU (R17), and the steps of 62.5 fs that the trims add (R360). -/
structure EdgePlace where
  frame : Int
  coarse : Nat
  interp : Nat
  trim : Int
  deriving DecidableEq, Repr

/-- One transfer of a PE script: the bits sent, how many, KEEP_CS, and the idle time after it in units of 10 ns (Table 8.4). -/
structure Transfer where
  data : Nat
  bits : Nat
  keepCs : Bool
  gap : Nat
  deriving DecidableEq, Repr

/-- Something that left the device, newest first in `State.out`: what an observer at its balls and its PCIe port sees. -/
inductive Emit where
  /-- A register read returned this value. -/
  | readValue (addr value : Nat)
  /-- An MSI-X message of a function's vector (R254). -/
  | msix (fn vector : Nat)
  /-- A DE or DH level change on a channel's ball at a time from its site's epoch (R34), with its place (R17). -/
  | ball (channel : Nat) (de : Bool) (level : Bool) (t : Int) (place : EdgePlace)
  /-- A trigger output or event line begins or ends a pulse (R204). -/
  | line (line : Nat) (asserted : Bool) (t : Nat)
  /-- A 256-byte Courier frame sent or delivered on a port. -/
  | frameSent (port : Nat) (frame : Nat)
  | frameDelivered (port : Nat) (frame : Nat)
  /-- Blocks as their lanes send them, in stripe order: lane and 66-bit word (R275, R279). -/
  | blocks (port : Nat) (words : List (Nat × Nat))
  /-- A LINK_CTL request repeated some times while it was not answered (R300). -/
  | repeats (port subtype lane times : Nat)
  /-- SKIP blocks of a stripe are deleted or repeated by the receiver: -1, 1 (R296). -/
  | skipMoved (port : Nat) (by_ : Int)
  /-- A pattern generator runs on some lanes (R301, R303); one bit that a generator sends is inverted on a lane. -/
  | pattern (port lanes code : Nat)
  /-- A self-test loop runs on a group: path, pattern and rate (R381). -/
  | selfTest (group loop pattern rate : Nat)
  | bitError (port lane : Nat)
  /-- A LINK_CTL block: subtype, ARG16, ARG8 (Table 13.11). -/
  | linkCtl (port subtype arg16 arg8 : Nat)
  /-- A MARKER block with its active-lane mask and whether a SKIP follows it (R276, R296). -/
  | marker (port mask : Nat) (skip : Bool)
  /-- A PE script begins on a group's port: slot, SPI mode 3 or 0, CLK_DIV, what it sends (Table 8.4, R487). -/
  | peScript (group slot : Nat) (mode3 : Bool) (clkDiv : Nat) (transfers : List Transfer)
  /-- A hierarchy message: its kind by the Courier message code, destination device, argument. -/
  | message (kind dest arg : Nat)
  /-- SYNC_OUT, PPS_OUT pulses and ToD messages (R321, R325). -/
  | syncOut (t : Nat)
  | ppsOut (t : Nat)
  | tod (message : Nat)
  /-- An SMBus answer, and the release of ALERT_N. -/
  | smbus (value : Nat)
  | alertResponse
  deriving DecidableEq, Repr

/-- One sample of a channel's comparators: from `t` on, CH and CL read these levels. -/
structure PinSample where
  t : Nat
  ch : Bool
  cl : Bool
  deriving DecidableEq, Repr

/-- The class of a scheduled edge (R42). -/
inductive EdgeClass where
  | de
  | dh
  | strobe
  deriving DecidableEq, Repr

/-- A strobe waiting to be placed and judged: what R108, R125, R130 and R160 need of the vector that owns it. -/
structure StrobeInfo where
  window : Bool
  /-- 0 the C0 strobe or the window, 1 the C1 strobe, 2 + k the serial-burst strobe k. -/
  sub : Nat
  /-- COMPARE_OP as it acts: with FC off, operations 1 to 4 act as 5 (R108). -/
  cop : Nat
  /-- The expected bits: bit s is the one s bits back, bit 0 the strobe's own (R130). -/
  hist : Nat
  /-- Serial-burst strobe number j = 4n + k (R130). -/
  j : Nat
  burst : Bool
  masked : Bool
  /-- LEVEL_MASK withholds the main verdict (R164). -/
  lmask : Bool
  search : Bool
  capture : Bool
  isMatch : Bool
  cc : Bool
  /-- The staged SLIP in force for the strobe's vector (R47, R129). -/
  slip : Nat
  /-- 0 no offset sample counts, 1 at the staged O, 2 for a survey's point: its task and the point (R160, R163). -/
  es : Nat
  survey : Nat × Nat
  /-- The expected state of a tracking vote, where the vector votes (R125). -/
  votes : Option Bool
  offset : Int
  deriving DecidableEq, Repr

/-- A scheduled edge of a channel that is not placed yet (R40 to R45). A window is one edge whose `first` is its open. -/
structure Edge where
  ord : Nat
  vec : Nat
  cls : EdgeClass
  slot : Nat
  first : Int
  t : Int
  level : Bool
  strobe : Option StrobeInfo
  deriving DecidableEq, Repr

/-- A crossing of a comparator that may become a stamp: its stamp from the epoch, when it arrived, which comparator, its direction,
whether TB_WARM was low and the channel's group CAL_OVERDUE or STALE (R132, R134, R146, Table 6.7). -/
structure PmStamp where
  t : Int
  root : Nat
  comp : Comparator
  rising : Bool
  low : Bool
  cal : Bool
  deriving DecidableEq, Repr

/-- One test channel. -/
structure Chan where
  pins : List PinSample
  pend : List Edge
  /-- Strobes placed and judged whose offset sample is still to come (R160). -/
  late : List Edge
  de : Bool
  dh : Bool
  failCount : Nat
  firstFail : Option Nat
  invalid : Nat
  last : Option (BitVec 2)
  respQ : List (BitVec 64)
  respDrop : Nat
  pmQ : List (BitVec 64)
  pmDrop : Nat
  pmDropGap : Nat
  pmDead : Nat
  pmLast : Option Int
  pmNum : Nat
  pmVec : Option Nat
  /-- Crossings whose vector is not yet known, in stamp order (R139, R141). -/
  pmWait : List PmStamp
  /-- The postmark settings and EP of the run, newest first, each with the start of its first vector; empty where none has changed
  since the epoch (R141). -/
  pmHist : List (Int × Nat × Bool)
  gen : BitVec 32
  expect : List Bool
  slip : Nat
  alignStatus : Nat
  alignBad : BitVec 32
  alignSeen : Nat
  /-- Vectors of the alignment search, as set at the run epoch; 0 where none runs (R131). -/
  searchLen : Nat
  esCompared : Nat
  esMismatch : Nat
  /-- In a survey, the counts of the point (R163). -/
  svCompared : Nat
  svMismatch : Nat
  maskedLevel : Bool
  deriving DecidableEq, Repr

/-- A channel at reset: CH and CL deasserted (an open input, R481), DE and DH deasserted (R50). -/
def Chan.reset : Chan :=
  { pins := [], pend := [], late := [], de := false, dh := false, failCount := 0, firstFail := none, invalid := 0, last := none,
    respQ := [], respDrop := 0, pmQ := [], pmDrop := 0, pmDropGap := 0, pmDead := 0, pmLast := none, pmNum := 0,
    pmVec := none, pmWait := [], pmHist := [], gen := 0, expect := [], slip := 0, alignStatus := 0, alignBad := 0, alignSeen := 0, searchLen := 0, esCompared := 0,
    esMismatch := 0, svCompared := 0, svMismatch := 0, maskedLevel := false }

/-- The states of a pattern sequencer (Table 4.5). -/
inductive SeqState where
  | idle
  | armed
  | run
  | hold
  | starved
  | drain
  | parked
  deriving DecidableEq, Repr

/-- A RUN that waits for its start condition or runs: its task and operands (R103). -/
structure RunReq where
  task : Nat
  site : Nat
  start : Nat
  input : Nat
  falling : Bool
  seg : Nat
  secs : Nat
  tu : Nat
  deriving DecidableEq, Repr

/-- A segment that the prefetch walker has entered and the executing walk has not: its entry as read, the walker's stack (R79, R93). -/
structure Entered where
  seg : Nat
  entry : Nat
  stack : List Nat
  deriving DecidableEq, Repr

/-- A line in the prefetch: its address, its data, whether it was read poisoned, and the segments that the walker entered between the
line before and it, oldest first (R93, R106, R184). -/
structure FetchedLine where
  addr : Nat
  data : BitVec 512
  poisoned : Bool
  via : List Entered
  deriving DecidableEq, Repr

/-- The prefetch walker's place: segment, its entry as read, pass, next line of the pass, its own call stack (R93). -/
structure Walker where
  seg : Nat
  entry : Nat
  pass : Nat
  line : Nat
  stack : List Nat
  ended : Bool
  /-- Segments entered since the last line fetched, newest first (R184). -/
  via : List Entered
  /-- Segments entered since the last line: how many, and the one kept to tell that the path goes round without a line. -/
  idle : Nat
  mark : Option (Nat × List Nat)
  /-- A jump has been taken: after the lines of the jumping pass the walker goes on at this segment with this stack (R96). -/
  jumpTo : Option (Nat × List Nat)
  deriving DecidableEq, Repr

/-- What is known of one issued vector until its last strobe has been judged (R113, R118). -/
structure VecRec where
  vec : Nat
  seg : Nat
  pass : Nat
  capture : Bool
  isMatch : Bool
  /-- RESPONSE as it stood when the vector started (R56), and the ordinal at which its pass began (R89). -/
  resp : Nat
  passId : Nat
  /-- Per channel: strobes left, fail bits (0 C0 or window, 1 C1, 2 to 5 bit strobes). -/
  left : List (Nat × Nat)
  fails : List (Nat × Nat)
  window : Bool
  lastFail : Int
  deriving DecidableEq, Repr

/-- A vector or hold slot as issued: ordinal since the epoch, start, the frame that contains the start (R16), period, tracking
correction, index of the vector (of the next vector, for a hold slot) (R101, R138, R139). -/
structure VecMark where
  ord : Nat
  start : Nat
  frame : Nat
  period : Nat
  tau : Int
  vec : Nat
  hold : Bool
  deriving DecidableEq, Repr

/-- A tracking vote on its way to the loop: the sample's time and the signed step in 1/256 TU (R126). -/
structure Vote where
  t : Int
  step : Int
  deriving DecidableEq, Repr

/-- The strobe-tracking loop of a site (R124 to R127). -/
structure Track where
  tInt : Int
  votes : List Vote
  count : Nat
  limit : Nat
  lock : Bool
  history : List Bool
  lastVote : Option Int
  prevE : Option Bool
  deriving DecidableEq, Repr

/-- An eye survey in progress (R163, R164). -/
structure Survey where
  task : Nat
  levels : Nat
  levelMask : Bool
  dwell : Nat
  channels : Nat
  oFirst : Int
  oLast : Int
  oStep : Nat
  settle : Nat
  bufAddr : Nat
  paramAddr : Nat
  level : Nat
  offset : Int
  points : Nat
  counting : Bool
  waiting : Nat
  settleDue : Option Nat
  deriving DecidableEq, Repr

/-- One site and its pattern sequencer. -/
structure Site where
  st : SeqState
  req : Option RunReq
  prepared : Bool
  prepSeg : Nat
  prepAt : Nat
  /-- The epoch a met start condition names, in root TU (R103). -/
  epochAt : Option Nat
  epoch : Nat
  /-- The start-time accumulator. It is kept unwrapped; the register holds it modulo 2^64 (R26). -/
  acc : Nat
  vec : Nat
  ord : Nat
  seg : Nat
  entry : Nat
  pass : Nat
  v : Nat
  started : Bool
  stack : List Nat
  latches : Tab (Option Int)
  /-- The pass's decision has been taken, and whether it is to jump (R85); the ordinal at which the pass began. -/
  decided : Bool
  jump : Bool
  passStart : Nat
  /-- Start time and index of the pass's decision vector, once issued (R83). -/
  tdp : Option (Nat × Nat)
  matchRes : List (Int × Bool × Nat)
  sysMatch : Option Bool
  vecs : List VecRec
  /-- Vectors and hold slots issued lately, newest first. -/
  recent : List VecMark
  prefetch : List FetchedLine
  /-- Line address and LENGTH of the pigeonhole sets that the site holds (R95). -/
  resident : List (Nat × Nat)
  walker : Option Walker
  /-- The pass has been flagged already, and its frank has been compared (R104, R106). -/
  passPoison : Bool
  checked : Bool
  passFrank : BitVec 32
  passBytes : Nat
  /-- Segments whose re-reads are under way, with the FRANK in force (R104). -/
  rereads : List (Nat × Nat)
  suspect : List Nat
  mismatch : List Nat
  conditions : BitVec 8
  firstFlagged : Option Nat
  flagged : Nat
  endReason : Nat
  /-- A STOP (reason 1) or CANCEL (2) that waits for its boundary: when it was dispatched, its reason (R102). -/
  stopReq : Option (Nat × Nat)
  failStop : Option Int
  /-- Vectors applied and entry in force when the site left the walk (Table 4.8). -/
  left : Option (Nat × Nat)
  /-- A MATCH_GROUP that the site joined at its epoch (R330). -/
  joined : Option Nat
  tClose : Option Int
  hEpoch : Option Nat
  failCount : Nat
  firstFail : Option Nat
  log : List (BitVec 256)
  logVecs : List Nat
  overflow : Nat
  track : Track
  /-- Eye surveys in progress: one channel is in one at most (R165). -/
  surveys : List Survey
  /-- Ended surveys whose LEVEL_MASK lasts: task, channels, groups whose level 0 script is still to play (R164). -/
  masks : List (Nat × Nat × Nat)
  marks : List (BitVec 64)
  epochPairs : Nat
  deriving DecidableEq, Repr

def Track.reset : Track :=
  { tInt := 0, votes := [], count := 0, limit := 0, lock := false, history := [], lastVote := none, prevE := none }

/-- A site at reset: IDLE, nothing held (Table 4.5). -/
def Site.reset : Site :=
  { st := .idle, req := none, prepared := false, prepSeg := 0, prepAt := 0, epochAt := none, epoch := 0, acc := 0, vec := 0,
    ord := 0, seg := 0, entry := 0, pass := 0, v := 0, started := false, stack := [], latches := [], decided := false,
    jump := false, passStart := 0, tdp := none, matchRes := [], sysMatch := none, vecs := [], recent := [], prefetch := [], resident := [], walker := none, passPoison := false, checked := false, passFrank := 0, passBytes := 0, rereads := [], suspect := [], mismatch := [],
    conditions := 0, firstFlagged := none, flagged := 0, endReason := 0, stopReq := none, failStop := none, left := none, joined := none, tClose := none, hEpoch := none, failCount := 0, firstFail := none, log := [], logVecs := [],
    overflow := 0, track := Track.reset, surveys := [], masks := [], marks := [], epochPairs := 0 }

/-- A qualifying stamp on its way into a slot: its time, the ordinal of its vector, and whether it is of channel A and B. -/
structure SlotStamp where
  t : Int
  ord : Option Nat
  isA : Bool
  isB : Bool
  /-- When it arrived, whether TB_WARM was low then, and whether its channel's group was CAL_OVERDUE or STALE. -/
  root : Nat
  low : Bool
  cal : Bool
  deriving DecidableEq, Repr

/-- An interval pair slot's accumulators and latched summary (R148 to R150). -/
structure Slot where
  /-- Stamps in stamp order that the other channel may still precede. -/
  q : List SlotStamp
  count : Nat
  miss : Nat
  sum : Int
  sumsq : Nat
  min : Int
  max : Int
  saturated : Bool
  /-- TB_WARM was low at a contributing stamp; when the first and the last of the period arrived (R146). -/
  warmup : Bool
  from_ : Option Nat
  upTo : Option Nat
  cal : Bool
  first : Option Int
  last : Option Int
  openA : Option SlotStamp
  /-- KIND 0: the ordinal under way and the first stamps of A and B in it. -/
  ord : Option Nat
  vecA : Option Int
  vecB : Option Int
  latched : BitVec 512
  nextLatch : Nat
  /-- The run's last latch has been taken. -/
  closed : Bool
  deriving DecidableEq, Repr

def Slot.reset : Slot :=
  { q := [], count := 0, miss := 0, sum := 0, sumsq := 0, min := 0, max := 0, saturated := false, warmup := false,
    from_ := none, upTo := none, cal := false, first := none, last := none, openA := none, ord := none, vecA := none, vecB := none,
    latched := 0, nextLatch := 0, closed := false }

/-- The states of a ring set (Table 11.4). -/
inductive RsState where
  | disabled
  | enabled
  | shuttingDown
  deriving DecidableEq, Repr

/-- A ring set's indices and pending work (R239 to R243, R254, R255). Its bases, lengths and controls are registers. -/
structure RingSet where
  st : RsState
  enablePending : Bool
  /-- A function or link reset asked for the shutdown: the registers reset once it completes (R455). -/
  resetRegs : Bool
  cmdProd : BitVec 32
  cmdCons : BitVec 32
  cplProd : BitVec 32
  cplCons : BitVec 32
  strProd : BitVec 32
  strCons : BitVec 32
  /-- Ring (0 command, 1 completion, 2 stream, 3 event) to its held next base (R239). -/
  nextBase : Tab (Option (BitVec 64))
  /-- Ring to the log2 length that waits for the ring to empty (R255). -/
  resize : Tab (Option Nat)
  /-- Entries written since the ring's last signal, and when the first of them was (R254). -/
  sigCount : Tab Nat
  sigFirst : Tab (Option Nat)
  deriving DecidableEq, Repr

def RingSet.reset : RingSet :=
  { st := .disabled, enablePending := false, resetRegs := false, cmdProd := 0, cmdCons := 0, cplProd := 0, cplCons := 0, strProd := 0,
    strCons := 0, nextBase := [], resize := [], sigCount := [], sigFirst := [] }

/-- The host interface beside its registers and ring sets. -/
structure Hif where
  rings : Tab RingSet
  rate : Nat
  width : Nat
  flit : Bool
  /-- SR-IOV: the VFs that are enabled, and NumVFs (R232). -/
  vfEnabled : BitVec 32
  numVfs : Nat
  /-- Sites in force by function: site to VF, 0 the PF (R236). -/
  holder : Tab Nat
  evtProd : BitVec 32
  evtCons : BitVec 32
  evtLost : Nat
  evtSigCount : Nat
  evtSigFirst : Option Nat
  /-- MSI-X vectors that are unmasked, and pending bits, by function * 128 + vector (R254). -/
  unmasked : List Nat
  msixPending : List Nat
  /-- The held low half of a 64-bit register write, by block: address and value (R451). -/
  heldLow : Tab (Option (Nat × W32))
  deriving DecidableEq, Repr

def Hif.reset : Hif :=
  { rings := [], rate := 0, width := 0, flit := false, vfEnabled := 0, numVfs := 0, holder := [], evtProd := 0,
    evtCons := 0, evtLost := 0, evtSigCount := 0, evtSigFirst := none, unmasked := [], msixPending := [], heldLow := [] }

/-- The states in which a task rests between steps (Table 12.1); CHECKING and COMPLETING begin and end within one step. -/
inductive TaskState where
  | checking
  | waiting
  | ready
  | inService
  | completing
  deriving DecidableEq, Repr

/-- A task slot (R256). -/
structure Task where
  id : Nat
  hdr : Hdr
  /-- The function that owns the task's ring set when it was fetched: 0 the PF, v for VF v. -/
  fn : Nat
  /-- The task arrived over Courier: it has no ring set, and no completion is written for it (R267). -/
  courier : Bool
  op : Op
  st : TaskState
  readySeq : Nat
  released : Bool
  due : Nat
  /-- The engine's outcome, ready to be completed: status and 128-bit result (R250). -/
  outcome : Option (Nat × Nat)
  /-- A CANCEL waits for these tasks (R273). -/
  waitsFor : List Nat
  bad : Bool
  deriving DecidableEq, Repr

/-- The Sorting Office (R256 to R273). -/
structure Sorting where
  tasks : List Task
  nextId : Nat
  readySeq : Nat
  paused : Bool
  turn : Nat
  deriving DecidableEq, Repr

def Sorting.reset : Sorting := { tasks := [], nextId := 0, readySeq := 0, paused := false, turn := 0 }

/-- A commit in preparation or prepared (R180, R181). -/
structure PendingCommit where
  task : Option Nat
  form : Nat
  mask : Nat
  site : Nat
  entry : Nat
  /-- Instant as a PTU time in TU (form 2). -/
  instant : Nat
  rs : Nat
  budget : Nat
  /-- The items still to apply: kind * 65536 + index, value. -/
  items : List (Nat × Nat)
  prepDue : Nat
  prepared : Option Nat
  /-- The reference moment has come, and when (Table 8.8); pigeonhole sets the commit fills: line, LENGTH, pigeonholes (R180). -/
  refDone : Bool
  moment : Nat
  fills : List (Nat × Nat × Nat)
  /-- The site of a segment-boundary commit has been IDLE since the check (R183). -/
  lapsed : Bool
  anyApplied : Bool
  system : Bool
  /-- The committed set before the commit's first item applied: the digest reports it until the last has (R188). -/
  old : Tab Nat
  deriving DecidableEq, Repr

/-- A system commit as this device sees it (R186, R187). -/
structure SystemCommit where
  instant : Nat
  epoch : Nat
  voted : Bool
  readyDevs : List Nat
  refused : List Nat
  confirmed : List Nat
  gone : Bool
  /-- The Postmaster's COMMIT task; a Branch's part has a slot of its own instead (R267). -/
  task : Option Nat
  slot : Option Nat
  deriving DecidableEq, Repr

/-- The staged and committed configuration (R171 to R188). -/
structure Cfg where
  /-- Committed items that differ from their reset value: kind * 65536 + index to the item's little-endian value. -/
  committed : Tab Nat
  /-- Draft of each ring set: rising item keys with their values. -/
  drafts : Tab (List (Nat × Nat))
  pending : Option PendingCommit
  system : Option SystemCommit
  commitSeq : Nat
  epoch : Nat
  warm : Bool
  budget : Nat
  demand : Nat
  latchedDigest : BitVec 256
  deriving DecidableEq, Repr

def Cfg.reset : Cfg :=
  { committed := [], drafts := [], pending := none, system := none, commitSeq := 0, epoch := 0, warm := false, budget := 0,
    demand := 0, latchedDigest := 0 }

/-- A postbag being filled, or a closed one on its way to the host (R208, R210). -/
structure Bag where
  stream : Nat
  rs : Nat
  recs : List (BitVec 64)
  summaries : List (BitVec 576)
  isSummary : Bool
  final : Bool
  early : Bool
  warmup : Bool
  opened : Nat
  closedSec : Nat
  closedTu : Nat
  /-- The first of the 64 pattern lines that hold it in the spill ring (R211). -/
  line : Option Nat
  deriving DecidableEq, Repr

/-- One acquisition stream (R194 to R214). -/
structure Stream where
  isOpen : Bool
  rs : Nat
  task : Option Nat
  epoch : Nat
  epochSec : Nat
  epochTu : Nat
  pairs : Nat
  stamp : BitVec 32
  written : Nat
  cur : Option Bag
  notOpen : Nat
  /-- Reason to the count not reported yet, and to the count since STREAM_OPEN (R213, R214). -/
  unreported : Tab Nat
  lost : Tab Nat
  sumLost : Nat
  /-- The summary bag being filled, where the stream is SUMMARY_STREAM (R208). -/
  curSum : Option Bag
  /-- STREAM_CLOSE has been dispatched: its task, none at a shutdown, and REPORT_ADDR. -/
  closing : Option (Option Nat × Nat)
  deriving DecidableEq, Repr

def Stream.reset : Stream :=
  { isOpen := false, rs := 0, task := none, epoch := 0, epochSec := 0, epochTu := 0, pairs := 0, stamp := 0, written := 0,
    cur := none, notOpen := 0, unreported := [], lost := [], sumLost := 0, curSum := none, closing := none }

/-- The acquisition stream engine: streams, device record queue, bag buffer, spill ring (R198, R211). -/
structure Acq where
  streams : Tab Stream
  /-- The device record queue: a record with its stream, plus 16 where a flush follows it (R210). -/
  devQ : List (BitVec 64 × Nat)
  devDrop : Nat
  summaryQ : List (BitVec 576)
  buffer : List Bag
  spill : List Bag
  /-- Bags of the spill ring that belong to the ring before the last change of it (R193); the ring's next place. -/
  spillOld : Nat
  spillPos : Nat
  /-- Per stream, the queue that its merger served last (R198). -/
  served : Tab Nat
  deriving DecidableEq, Repr

def Acq.reset : Acq := { streams := [], devQ := [], devDrop := 0, summaryQ := [], buffer := [], spill := [], spillOld := 0, spillPos := 0, served := [] }

/-- A pulse of a trigger line: when it starts and ends (R204, R206). -/
structure Pulse where
  start : Nat
  stop : Nat
  route : Nat
  deriving DecidableEq, Repr

/-- One input of the trigger engine, and one output line. -/
structure Trg where
  level : Tab Bool
  lastEdge : Tab (Option Nat)
  waiting : Tab (List Pulse)
  active : Tab (Option Pulse)
  /-- Pulses begun on an asserted line that have not ended, each with its own route (R206). -/
  begun : Tab (List Pulse)
  deriving DecidableEq, Repr

def Trg.reset : Trg := { level := [], lastEdge := [], waiting := [], active := [], begun := [] }

/-- The states of the CSP (Table 10.5). -/
inductive CspState where
  | off
  | loaded
  | running
  | halted
  | faulted
  deriving DecidableEq, Repr

/-- The CSP's hardware loop: body start, length, iterations left (none for ever), whether its body is cached and a later iteration
than the first, which filled the cache, runs (R220). -/
structure CspLoopRec where
  start : Nat
  length : Nat
  left : Option Nat
  cached : Bool
  again : Bool
  deriving DecidableEq, Repr

/-- A write that a move of an instruction word makes as the word retires (R221). -/
inductive CspWrite where
  | v (i : Nat) (x : BitVec 512)
  | s (i : Nat) (x : BitVec 32)
  | p (i : Nat) (x : BitVec 32)
  | m (i : Nat) (x : BitVec 32)
  | l (i : Nat) (x : BitVec 32)
  | q (i : Nat) (x : BitVec 16)
  | flags (x : BitVec 32)
  | sat
  | mem (mem : CspMem) (addr bytes value : Nat)
  deriving DecidableEq, Repr

/-- The capture signal processor (R215 to R230). -/
structure Csp where
  st : CspState
  v : Tab (BitVec 512)
  a : Tab (List Int)
  s : Tab (BitVec 32)
  p : Tab (BitVec 32)
  m : Tab (BitVec 32)
  l : Tab (BitVec 32)
  q : Tab (BitVec 16)
  flags : BitVec 32
  /-- X, Y and C memory: bytes written since the image was activated; an unlisted byte is the image's. -/
  x : Tab (Option Byte)
  y : Tab (Option Byte)
  c : Tab (Option Byte)
  inQ : List (BitVec 64 × Nat)
  inDrop : Nat
  outQ : List (BitVec 64)
  pc : Nat
  calls : List Nat
  loops : List CspLoopRec
  /-- A stalled OUT: the lanes still to push (R216). A WAIT: records wanted and the cycle count's end. -/
  stalled : Option (List (BitVec 64))
  waiting : Option (Nat × Nat)
  /-- What the moves of the word being issued write as it retires. -/
  held : List CspWrite
  task : Option Nat
  popped : Nat
  pushed : Nat
  exception : Nat
  activatePending : Option Nat
  /-- Trellis: states S, metric base, ring base, ring depth, position, path metrics (R225). -/
  states : Nat
  bmBase : Nat
  ringBase : Nat
  depth : Nat
  pos : Nat
  metrics : Tab Nat
  /-- Image in force: measurement and security version. -/
  meas : Option (BitVec 256)
  version : Nat
  deriving DecidableEq, Repr

def Csp.reset : Csp :=
  { st := .off, v := [], a := [], s := [], p := [], m := [], l := [], q := [], flags := 0, x := [], y := [], c := [],
    inQ := [], inDrop := 0, outQ := [], pc := 0, calls := [], loops := [], stalled := none, waiting := none, held := [], task := none,
    popped := 0, pushed := 0, exception := 0, activatePending := none, states := 4, bmBase := 0, ringBase := 0, depth := 16,
    pos := 0, metrics := [], meas := none, version := 0 }

/-- The states of a Courier port (Table 13.5), by code. -/
inductive PortState where
  | down
  | detect
  | train
  | bitLock
  | symbolLock
  | capability
  | active
  | recovery
  | test
  deriving DecidableEq, Repr

/-- One Courier port (R275 to R307). Frames are 256-byte little-endian values. -/
structure Port where
  st : PortState
  tx : BitVec 4
  rx : BitVec 4
  reversed : Bool
  inverted : BitVec 4
  filler : Bool
  fillerPending : Bool
  fclkOk : Bool
  lostFrames : Nat
  /-- Frames that wait to be sent, by virtual channel. -/
  txq : Tab (List (BitVec 2048))
  credits : Tab Nat
  stamp : BitVec 16
  replay : List (BitVec 2048)
  /-- The oldest frame's resends, and when a resend that a NAK began started, with its first stamp (R286, R287). -/
  resends : Nat
  nakAt : Option (Nat × BitVec 16)
  oldestSince : Nat
  expected : BitVec 16
  everActive : Bool
  /-- The NAK of the present run of discarded frames has gone (R285). -/
  nakSent : Bool
  /-- Lane changes set for a marker: lane, add, not before (R300, R301). -/
  changes : List (Nat × Bool × Nat)
  markers : Nat
  /-- When receive lanes were declared failed (R299); LANE_DROP and LANE_ADD requests not answered yet: lane, add, next repeat (R300). -/
  failedAt : Tab (Option Nat)
  asked : List (Nat × Bool × Nat)
  /-- Since when a dropped receive lane has been in order (R301). -/
  laneSince : Tab (Option Nat)
  /-- Lanes of each direction that passed DETECT and TRAIN, and transmit lanes admitted when the link entered ACTIVE (R290, R301). -/
  found : BitVec 4
  foundRx : BitVec 4
  admitted : BitVec 4
  /-- Lane numbers read on the receive lanes, and whether RECOVERY has its lanes again (R290, R292). -/
  numbers : Tab (Option Nat)
  relocked : Bool
  /-- Frames on their way, the one that goes first in front: virtual channel and when its first data block went (R281). -/
  begun : List (Nat × Nat)
  /-- Delivered frames that wait for a task slot, by virtual channel (R267, R282). -/
  rxq : Tab (List (BitVec 2048))
  /-- Place in the stripe and each lane's scrambler (R275, R279). -/
  txPos : Nat
  scr : Tab Nat
  /-- Since when each lane's checker has seen no error before its lock, and the time up to which injected errors are counted (R303). -/
  checkAt : Tab Nat
  injAt : Nat
  capSeen : Bool
  capAcked : Bool
  peer : BitVec 64
  injectFrank : Bool
  slips : Tab Nat
  retryDue : Option Nat
  /-- Bring-up timeout of the state in force. -/
  due : Option Nat
  eyeRunning : Bool
  eyeSince : Nat
  eyeMismatch : Nat
  eyeCompared : Nat
  eyeDone : Bool
  /-- Hierarchy: this link is a tree link below us, a cross link; the exchange in progress; measured figures. -/
  child : Option Nat
  cross : Bool
  exSeq : BitVec 16
  exT1 : Option Nat
  exT2 : Nat
  exT3 : Nat
  path : Nat
  flight : Nat
  skewDone : Bool
  deriving DecidableEq, Repr

def Port.reset : Port :=
  { st := .detect, tx := 0, rx := 0, reversed := false, inverted := 0, filler := false, fillerPending := false,
    fclkOk := false, lostFrames := 0, txq := [], credits := [], stamp := 0, replay := [],
    resends := 0, nakAt := none, oldestSince := 0, expected := 0, everActive := false, nakSent := false, changes := [],
    markers := 0, failedAt := [], asked := [], laneSince := [], found := 0, foundRx := 0, admitted := 0, numbers := [], relocked := false,
    begun := [], rxq := [], txPos := 0, scr := [], checkAt := [], injAt := 0, capSeen := false, capAcked := false, peer := 0, injectFrank := false,
    slips := [], retryDue := none, due := none, eyeRunning := false, eyeSince := 0, eyeMismatch := 0, eyeCompared := 0, eyeDone := false,
    child := none, cross := false, exSeq := 0, exT1 := none, exT2 := 0, exT3 := 0, path := 0, flight := 0, skewDone := false }

/-- A match group as this device knows it (R330 to R332). -/
structure MatchGroup where
  combiner : Nat
  h : Nat
  inSubtree : Bool
  known : Bool
  joined : List Nat
  verdicts : List (Nat × Bool)
  index : Option Nat
  resultSent : Bool
  result : Option (Nat × Bool)
  deadline : Option Nat
  deriving DecidableEq, Repr

def MatchGroup.reset : MatchGroup :=
  { combiner := 0, h := 0, inSubtree := false, known := false, joined := [], verdicts := [], index := none,
    resultSent := false, result := none, deadline := none }

/-- A device of the tree as the Postmaster knows it: id, serial, hops, path latency in TU, parent id, its own port of arrival and the
parent's port that reached it. -/
structure Node where
  id : Nat
  serial : BitVec 64
  hops : Nat
  path : Nat
  parent : Nat
  arrival : Nat
  port : Nat
  inTree : Bool
  deriving DecidableEq, Repr

/-- A broadcast image under reception: base line, bytes so far, whether they are all, the task slot (R74, R267). -/
structure Reception where
  base : Nat
  bytes : List Byte
  whole : Bool
  slot : Nat
  deriving DecidableEq, Repr

/-- The hierarchy (R308 to R332). -/
structure Tree where
  id : Option Nat
  /-- A Branch is in the tree: it has been enumerated and its upstream link has stayed ACTIVE since (R309, R329). -/
  inTree : Bool
  hops : Nat
  /-- The port by which the Postmaster's enumeration reached the device first, once it has (R13). -/
  upstream : Nat
  reached : Bool
  nodes : List Node
  lsys : Nat
  groups : Tab MatchGroup
  inEpoch : Bool
  aligned : Bool
  misaligned : Nat
  /-- Device id to 1 + the port behind which it lies, learnt from the frames it sent. -/
  routes : Tab Nat
  /-- Ports on which a device without an id has answered, with the device's own port, in order: the next ASSIGN from above for such a
  port is for the first (Table 14.1). -/
  asked : List (Nat × Nat)
  /-- A broadcast image under reception; boot images under reception, by kind (R74, R434). -/
  rxPattern : Option Reception
  rxBoot : Tab (List Byte)
  deriving DecidableEq, Repr

def Tree.reset : Tree :=
  { id := none, inTree := false, hops := 0, upstream := 0, reached := false, nodes := [], lsys := 0, groups := [], inEpoch := false, aligned := false,
    misaligned := 0, routes := [], asked := [], rxPattern := none, rxBoot := [] }

/-- The PTU's state (PTU_STATUS.STATE, Table 14.4). -/
inductive TimeState where
  | unset
  | locking
  | locked
  | holdover
  deriving DecidableEq, Repr

/-- One timed-pulse generator (R333). -/
structure Gen where
  arm : Bool
  missed : Bool
  next : Nat
  fired : Nat
  deriving DecidableEq, Repr

def Gen.reset : Gen := { arm := false, missed := false, next := 0, fired := 0 }

/-- One time domain of the Postmaster (R325 to R327). -/
structure Domain where
  ok : Bool
  edges : Nat
  lastEdge : Option Nat
  todFor : Option Nat
  todEnd : Nat
  offset : Int
  deriving DecidableEq, Repr

def Domain.reset : Domain := { ok := false, edges := 0, lastEdge := none, todFor := none, todEnd := 0, offset := 0 }

/-- The postmark time unit (R313 to R334). System time at root TU x is `anchor + (x - anchorAt) * (2^48 + rate)` in units of
2^-48 TU (R314). -/
structure Ptu where
  started : Bool
  anchor : Nat
  anchorAt : Nat
  rate : Int
  nextRate : Option Int
  st : TimeState
  stepped : Bool
  /-- The servo's integral in units of 1/64 TU (R322). -/
  integral : Int
  stepNeeded : Bool
  degraded : Bool
  holdSince : Nat
  theta : Int
  captured : Option (Nat × Nat)
  domA : Domain
  domB : Domain
  domainB : Bool
  syncErr : Int
  gens : Tab Gen
  lastExchange : Nat
  tbWarm : Bool
  /-- When TB_WARM fell, newest first (R146). -/
  falls : List Nat
  warmTicks : Nat
  /-- Root phase steps still to walk, and the net phase walked since lock (R319, CLK_ROOT_PHASE). -/
  phaseToWalk : Int
  phase : Int
  phaseAt : Nat
  /-- The rate word sent in SYNC for the next second; a step that applies at a second: that second and the step (R321, R323). -/
  sent : Option Int
  stepAt : Option (Nat × Int)
  /-- A step measured on the Postmaster that its next SYNC carries. -/
  stepDue : Option Int
  matchRefused : Bool
  deriving DecidableEq, Repr

def Ptu.reset : Ptu :=
  { started := false, anchor := 0, anchorAt := 0, rate := 0, nextRate := none, st := .unset, stepped := false, integral := 0,
    stepNeeded := false, degraded := false, holdSince := 0, theta := 0, captured := none,
    domA := Domain.reset, domB := Domain.reset, domainB := false, syncErr := 0, gens := [], lastExchange := 0,
    tbWarm := false, falls := [], warmTicks := 0, phaseToWalk := 0, phase := 0, phaseAt := 0, sent := none, stepAt := none, stepDue := none,
    matchRefused := false }

/-- One physical rank of a memory channel. -/
structure Rank where
  retired : Bool
  retraining : Bool
  debt : Nat
  erased : List (Nat × Nat)
  readOnly : Bool
  mr4Normal : Nat
  mr4Doubled : Bool
  /-- Per subchannel * 10 + device, newest first: when codewords were corrected, and those with errors over all 8 of its symbols,
  within the last second (R347). -/
  corr : Tab (List Nat)
  wide : Tab (List Nat)
  deriving DecidableEq, Repr

def Rank.reset : Rank :=
  { retired := false, retraining := false, debt := 0, erased := [], readOnly := false, mr4Normal := 0, mr4Doubled := false,
    corr := [], wide := [] }

/-- A migration in progress: channel, source and spare ranks, lines copied (R354, R355). -/
structure Migration where
  chan : Nat
  source : Nat
  spare : Nat
  progress : Nat
  /-- Lines poisoned in the spare by the copy alone. -/
  bad : List Nat
  deriving DecidableEq, Repr

/-- A set of pigeonholes: a resident segment's lines as the fill read them, each with its poison (R94, R95). -/
structure Hole where
  line : Nat
  length : Nat
  lines : List (BitVec 512 × Bool)
  deriving DecidableEq, Repr

/-- The pattern memory and its controller (R335 to R359). -/
structure Mem where
  /-- Lines that differ from zero, and the lines that are poisoned (R351). -/
  lines : Tab (BitVec 512)
  poisoned : List Nat
  poisonLog : List Nat
  poisonCount : Nat
  /-- The pigeonholes in use (R94). -/
  holes : List Hole
  state : Nat
  dpc2 : Bool
  d32 : Bool
  doubled : Bool
  capacity : Nat
  /-- Channel * 4 + physical rank. -/
  ranks : Tab Rank
  /-- Channel * 4 + logical rank to physical rank; channel to spare, none where the channel has none. -/
  rankMap : Tab Nat
  spare : Tab (Option Nat)
  queue : List (Nat × Nat)
  migration : Option Migration
  /-- DIMM temperatures in 0.25 °C by channel * 2 + DIMM, and sensor misses in a row. -/
  temps : Tab Int
  misses : Tab Nat
  coolSince : Option Nat
  /-- Open banks by ((channel * 4 + rank) * 2 + subchannel) * 32 + bank: row, when they last served, the idle time they took. -/
  banks : Tab (Nat × Nat × Nat)
  recentre : List (Nat × Nat)
  deriving DecidableEq, Repr

def Mem.reset : Mem :=
  { lines := [], poisoned := [], poisonLog := [], poisonCount := 0, holes := [], state := 0, dpc2 := false, d32 := false, doubled := false,
    capacity := 0, ranks := [], rankMap := [], spare := [], queue := [], migration := none, temps := [], misses := [],
    coolSince := none, banks := [], recentre := [] }

/-- A calibration phase waiting or running on a group (R363): phase 0 internal, 1 loopback, 2 fixture; the task that asked. -/
structure PhaseRun where
  phase : Nat
  inPlace : Bool
  started : Bool
  task : Option Nat
  deriving DecidableEq, Repr

/-- One channel group: calibration, PE control port, parking (R360 to R383, R461). -/
structure Group where
  calTemp : Int
  calSeconds : Nat
  phases : BitVec 3
  temps : List Int
  /-- CAL_OVERDUE for want of a full calibration (R370, R378), and by the phases that missed their signature (R368). -/
  overdue : Bool
  missed : BitVec 3
  isStale : Bool
  due : Bool
  dueSince : Nat
  isPartial : Bool
  rerunAt : Nat
  replicaOut : Bool
  trackLag : Bool
  lag : Nat
  deferred : Bool
  asleepAt : Option Nat
  asleepTemp : Int
  queue : List PhaseRun
  loopRun : Bool
  loopRefused : Bool
  /-- Since when a running loop's checkers have seen no error before their lock, and the time up to which injected errors are counted
  (R381). -/
  loopFrom : Nat
  loopInj : Nat
  /-- The code of SENSE_2g as read for the loopback or fixture phase that runs (R366). -/
  sense : Option Int
  peBusy : Bool
  peSlot : Nat
  peCal : Bool
  /-- Claims on the port: slot, and for a level script its level parameter, level and survey (16, 8 and more bits). -/
  peQueue : List (Nat × Nat)
  peParam : Nat
  /-- The script in play, or the last played: when it began, CLK_DIV, its transfers (Table 8.4). -/
  peAt : Nat
  peDiv : Nat
  peTransfers : List Transfer
  peLastEnd : Nat
  alertLow : Bool
  deriving DecidableEq, Repr

def Group.reset : Group :=
  { calTemp := 0, calSeconds := 0, phases := 0, temps := [], overdue := false, missed := 0, isStale := false,
    due := false, dueSince := 0, isPartial := false, rerunAt := 0, replicaOut := false, trackLag := false, lag := 0,
    deferred := false, asleepAt := none, asleepTemp := 0, queue := [], loopRun := false, loopRefused := false, loopFrom := 0, loopInj := 0, sense := none,
    peBusy := false, peSlot := 0, peCal := false, peQueue := [], peParam := 0, peAt := 0, peDiv := 0, peTransfers := [], peLastEnd := 0, alertLow := false }

/-- Calibration beside its groups (R376 to R380). Trim words are keyed block * 128 + byte offset (Table 16.1). -/
structure Cal where
  /-- Applied trims, and the calibrated values they walk towards; unlisted words read their nominal value (R378). -/
  trims : Tab Nat
  targets : Tab Nat
  /-- The replica's change Δq by group * 8 + q since the last full calibration. -/
  delta : Tab Int
  /-- When a trim last took a step, by channel * 8 + q: the root TU, and its site's vectors plus hold slots. -/
  stepped : Tab (Nat × Nat)
  /-- Thermal model slopes by group * 8 + q (Table 16.3). -/
  model : Tab Int
  log : List CalRecord
  inForce : Option CalRecord
  noRecord : Bool
  badBlocks : BitVec 16
  slot : Nat
  lastAuto : Option Nat
  deriving DecidableEq, Repr

def Cal.reset : Cal :=
  { trims := [], targets := [], delta := [], stepped := [], model := [], log := [], inForce := none, noRecord := false, badBlocks := 0,
    slot := 0, lastAuto := none }

/-- A request that a converter serves (R391): who asked, what to convert, results still to deliver. -/
structure AdcReq where
  id : Nat
  /-- The MEASURE task; none for housekeeping, calibration and retest readings. -/
  task : Option Nat
  mux : Nat
  gain : Nat
  filter : Nat
  left : Nat
  urgent : Bool
  /-- Runs on both converters together (R394); each result is a pair check (R395). -/
  pair : Bool
  check : Bool
  /-- The converter a retest tries, MADC-B where set (R397). -/
  retest : Option Bool
  housekeeping : Bool
  /-- The group whose calibration phase takes the reading (R366, R391). -/
  cal : Option Nat
  skip : Nat
  records : Bool
  buffer : Bool
  addr : Nat
  deriving DecidableEq, Repr

/-- One measurement converter (R384 to R394). -/
structure Conv where
  isOut : Bool
  seq : Nat
  cur : Option AdcReq
  queue : List AdcReq
  accum : Int
  got : Nat
  ovr : Bool
  settled : Bool
  turn : Nat
  prevMux : Nat
  prevGain : Nat
  prevFilter : Nat
  settle : Nat
  last : BitVec 64
  deriving DecidableEq, Repr

def Conv.reset : Conv :=
  { isOut := false, seq := 0, cur := none, queue := [], accum := 0, got := 0, ovr := false, settled := false, turn := 0,
    prevMux := 0, prevGain := 0, prevFilter := 0, settle := 0, last := 0 }

/-- The measurement ADC subsystem. -/
structure Adc where
  a : Conv
  b : Conv
  /-- Latest housekeeping word by mux channel, the three freezes, MADC-A's word of a pair that waits for MADC-B's. -/
  hk : Tab (BitVec 64)
  frozen : Tab (Option (BitVec 64))
  pairWord : Option (BitVec 64)
  /-- Retests with a check that has failed, and the number of the next request. -/
  retestBad : List Nat
  nextId : Nat
  /-- Per MEASURE task: results delivered, results with OVR, last word. -/
  done : Tab (Nat × Nat × BitVec 64)
  deriving DecidableEq, Repr

def Adc.reset : Adc :=
  { a := Conv.reset, b := Conv.reset, hk := [], frozen := [], pairWord := none, retestBad := [], nextId := 0, done := [] }

/-- An entry of a Clerk context's call and loop stack: a return address, or a loop's first and last word (R403). -/
inductive ClerkFrame where
  | ret (pc : Nat)
  | loop (first last : Nat)
  deriving DecidableEq, Repr

/-- One Clerk context (R403). -/
structure Ctx where
  busy : Bool
  waiting : Bool
  isReady : Bool
  readySeq : Nat
  entry : Nat
  pc : Nat
  g : Tab (BitVec 64)
  stack : List ClerkFrame
  /-- Journal, newest first: address and the value overwritten (R407). -/
  journal : List (Nat × W32)
  noAbort : Bool
  customer : Bool
  task : Option Nat
  startAt : Nat
  /-- An abort that waits for the next safe point, by the status it gives. -/
  abortReq : Option Nat
  /-- A start that a pending swap holds (R413). -/
  held : Bool
  deriving DecidableEq, Repr

def Ctx.reset : Ctx :=
  { busy := false, waiting := false, isReady := false, readySeq := 0, entry := 0, pc := 0, g := [], stack := [],
    journal := [], noAbort := false, customer := false, task := none, startAt := 0, abortReq := none, held := false }

/-- The state of the inactive control-store bank (Table 18.7). -/
inductive BankState where
  | empty
  | verified
  | bad
  deriving DecidableEq, Repr

/-- The Clerk microengine and its control store (R400 to R414). -/
structure Clerk where
  active : Bool
  inactive : BankState
  /-- Microwords by bank * 8192 + address. -/
  words : Tab (BitVec 128)
  meas : Tab (Option (BitVec 256))
  version : Tab Nat
  /-- Mask of the root slots under which a bank's contents are signed. -/
  roots : Tab Nat
  /-- A pending swap: the IMAGE_ACTIVATE task and when it times out (R413). -/
  swapPending : Option (Nat × Nat)
  ctxs : Tab Ctx
  running : Option Nat
  readySeq : Nat
  sinceSafe : Nat
  /-- When the oldest request that waits for the running routine's safe point arrived. -/
  reqAt : Option Nat
  badWord : Option (Bool × Nat)
  badBlocks : List Nat
  viol : Nat
  deriving DecidableEq, Repr

def Clerk.reset : Clerk :=
  { active := false, inactive := .empty, words := [], meas := [], version := [], roots := [], swapPending := none, ctxs := [],
    running := none, readySeq := 0, sinceSafe := 0, reqAt := none, badWord := none, badBlocks := [], viol := 0 }

/-- One fault source (R415 to R427). Its configured reaction and PIN_EN are in FC_SRC_n. -/
structure Src where
  sticky : Bool
  active : Bool
  injOnly : Bool
  running : Nat
  /-- When the running reaction began, and the last assertion. -/
  since : Nat
  lastAt : Nat
  recoveries : Nat
  detail : W32
  firstAt : Nat
  deriving DecidableEq, Repr

def Src.reset : Src :=
  { sticky := false, active := false, injOnly := false, running := 0, since := 0, lastAt := 0, recoveries := 0, detail := 0,
    firstAt := 0 }

/-- One entry of the fault log (R429): source, reaction, injected, detail, PTU time as FC_LOG_TIME gives it. -/
structure FaultEntry where
  source : Nat
  reaction : Nat
  injected : Bool
  detail : W32
  time : Nat
  deriving DecidableEq, Repr

/-- The fault collector. -/
structure Fc where
  srcs : Tab Src
  /-- Newest first, 64 entries at most. -/
  log : List FaultEntry
  snapshot : Option FaultEntry
  deriving DecidableEq, Repr

def Fc.reset : Fc := { srcs := [], log := [], snapshot := none }

/-- An image staged by IMAGE_STAGE: its SHA-256, host address, length, header kind, security version, root slot. -/
structure StagedImage where
  sha : BitVec 256
  addr : Nat
  bytes : Nat
  kind : Nat
  version : Nat
  root : Nat
  deriving DecidableEq, Repr

/-- Boot, OTP, NOR flash and images (R430 to R449). -/
structure Boot where
  stage : Nat
  /-- The output swing of every channel in µVppd, as RSWING set it at power-on (R480). -/
  swing : Nat
  straps : BitVec 8
  strapInvalid : Bool
  configRefused : Bool
  fallback : BitVec 3
  refLock : Bool
  refFclk : Bool
  ocxo : Bool
  therm : Bool
  thermTemp : Int
  thermLatched : Bool
  porLow : Bool
  /-- ALERT_N is asserted, and the STATUS byte as it last was (R493). -/
  alertLow : Bool
  smbStatus : Nat
  /-- The root TU from which the SMBus target answers: 1 ms after POR_N rose (R493). -/
  smbFrom : Nat
  /-- OTP: programmed, revoked, root hashes, thermometer count, production lock. They survive every reset. -/
  programmed : BitVec 4
  revoked : BitVec 4
  roots : Tab (BitVec 256)
  rollback : Nat
  locked : Bool
  /-- The NOR flash's bytes that the device has programmed, and the 64 KB blocks it has erased: every other byte is as the part was
  delivered. They survive every reset. -/
  nor : Tab (Option Byte)
  norErased : List Nat
  /-- log2 of the flash's bytes, and quad mode, as stage 2 found them (SEC_NOR_INFO). -/
  norLog2 : Nat
  quad : Bool
  /-- The current slot by kind: 0 Clerk, 1 CSP, 2 default configuration. -/
  current : BitVec 3
  /-- Slots whose image verified at boot, by 2 * kind + slot. -/
  slotOk : BitVec 6
  staged : Tab (Option StagedImage)
  /-- The default configuration image that boot continuation is to apply, and the one it applied. -/
  cfgNext : Option StagedImage
  cfgMeas : Option (BitVec 256)
  cfgVersion : Nat
  cfgRoot : Nat
  cspRoot : Nat
  /-- READY waits for the boot's internal phases (R378). -/
  calWait : Bool
  armedUntil : Option Nat
  cmdResult : Nat
  quoteSeq : Nat
  deriving DecidableEq, Repr

/-- Boot at power-on, before the root PLL locks: stage 0, root slot 0 programmed at the factory, slots 2 and 3 blank, the
production lock clear and a rollback count of zero (R495). Root slot 1 is programmed by Finmund (R439). -/
def Boot.reset : Boot :=
  { stage := 0, swing := 400000, straps := 0, strapInvalid := false, configRefused := false, fallback := 0, refLock := false, refFclk := false,
    ocxo := false, therm := false, thermTemp := 0, thermLatched := false, porLow := false, alertLow := false, smbStatus := 0, smbFrom := tuPerMs,
    programmed := 0b0011, revoked := 0, roots := [], rollback := 0, locked := false, nor := [], norErased := [],
    norLog2 := 0, quad := false, current := 0, slotOk := 0, staged := [], cfgNext := none, cfgMeas := none, cfgVersion := 0,
    cfgRoot := 0, cspRoot := 0, calWait := false, armedUntil := none, cmdResult := 0, quoteSeq := 0 }

/-- The whole block. -/
structure State where
  /-- The commands that wait, first in first out. -/
  pending : List Instr
  /-- The root clock: TU since device reset. -/
  now : Nat
  /-- RW set-up registers by PF window address, where they differ from their reset value. -/
  regs : Tab W32
  /-- Read-to-clear counters by PF window address. -/
  rc : Tab Nat
  /-- Host memory as the device reads and writes it. -/
  host : List Host.Cell
  hif : Hif
  so : Sorting
  cfg : Cfg
  mem : Mem
  sites : Tab Site
  chans : Tab Chan
  slots : Tab Slot
  groups : Tab Group
  acq : Acq
  trg : Trg
  csp : Csp
  ports : Tab Port
  tree : Tree
  ptu : Ptu
  cal : Cal
  adc : Adc
  clerk : Clerk
  fc : Fc
  boot : Boot
  /-- When each periodic event last came, by event. -/
  timers : Tab Nat
  /-- The model's own: how many free values have been drawn (DESIGN CHOICE, notes/assumptions/2.md). -/
  freeCount : Nat
  /-- The model's own: what left the device, newest first (notes/assumptions/3.md). -/
  out : List Emit
  deriving DecidableEq, Repr

/-- The block right after power-on reset: every register at its reset value, nothing pending, boot at stage 0 (R430, R432,
R455, R477). -/
def State.reset : State :=
  { pending := [], now := 0, regs := [], rc := [], host := [], hif := Hif.reset, so := Sorting.reset, cfg := Cfg.reset,
    mem := Mem.reset, sites := [], chans := [], slots := [], groups := [], acq := Acq.reset, trg := Trg.reset,
    csp := Csp.reset, ports := [], tree := Tree.reset, ptu := Ptu.reset, cal := Cal.reset, adc := Adc.reset,
    clerk := Clerk.reset, fc := Fc.reset, boot := Boot.reset, timers := [], freeCount := 0, out := [] }

end Sys2Proof.Machine
end

