-- ==== Sys2Proof/Machine/Bits.lean ====
section
/-! DEFINITION. Bit fields, sparse tables, little-endian bytes and the check value: the plain helpers every meaning uses. -/

namespace Sys2Proof.Machine

/-! ### Bit fields (R6: bit 0 is the least significant bit of the value as a whole) -/

/-- Bits [lo + w - 1 : lo] of `v`. -/
def fld (v lo w : Nat) : Nat := (v >>> lo) % 2 ^ w

/-- `v` read as a signed number of `w` bits. -/
def toSigned (w v : Nat) : Int := if v % 2 ^ w < 2 ^ (w - 1) then (v % 2 ^ w : Nat) else (v % 2 ^ w : Nat) - (2 ^ w : Nat)

/-- The `w`-bit two's-complement pattern of `i`. -/
def ofSigned (w : Nat) (i : Int) : Nat := (i % (2 ^ w : Nat)).toNat

/-- Signed field. -/
def sfld (v lo w : Nat) : Int := toSigned w (fld v lo w)

/-- `v` with bits [lo + w - 1 : lo] replaced by those of `x`. -/
def putFld (v lo w x : Nat) : Nat := v - fld v lo w * 2 ^ lo + (x % 2 ^ w) * 2 ^ lo

/-- A Boolean as a bit. -/
def b2n (b : Bool) : Nat := if b then 1 else 0

/-- Addition that saturates at the largest `w`-bit number. -/
def satAdd (w a n : Nat) : Nat := min (a + n) (2 ^ w - 1)

/-- Division rounded up. -/
def ceilDiv (a b : Nat) : Nat := (a + b - 1) / b

/-- The indices below `n` whose bit is set in the mask. -/
def bitsOf (n mask : Nat) : List Nat := (List.range n).filter (fun i => mask.testBit i)

/-- The mask with the listed bits set, below `n`. -/
def maskOf (n : Nat) (p : Nat → Bool) : Nat := (List.range n).foldl (fun m i => if p i then m + 2 ^ i else m) 0

/-- Fold over the numbers below `n`, ascending. -/
def foldUpto {α : Type} (n : Nat) (a : α) (f : α → Nat → α) : α := (List.range n).foldl f a

/-! ### Sparse tables: rising keys, no entry equal to what an unlisted key reads as -/

/-- The entry of key `k`, or the default. -/
def tget {α : Type} (d : α) : Tab α → Nat → α
  | [], _ => d
  | (k', v) :: t, k => if k' = k then v else tget d t k

/-- The table without key `k`. -/
def terase {α : Type} : Tab α → Nat → Tab α
  | [], _ => []
  | (k', v) :: t, k => if k' = k then terase t k else (k', v) :: terase t k

/-- An entry put in its place among rising keys. -/
def tput {α : Type} : Tab α → Nat → α → Tab α
  | [], k, v => [(k, v)]
  | (k', v') :: t, k, v => if k < k' then (k, v) :: (k', v') :: t else (k', v') :: tput t k v

/-- Key `k` set to `v`; setting the default removes the entry. -/
def tset {α : Type} [DecidableEq α] (d : α) (t : Tab α) (k : Nat) (v : α) : Tab α :=
  if v = d then terase t k else tput (terase t k) k v

/-- Key `k` changed by `f`. -/
def tmod {α : Type} [DecidableEq α] (d : α) (t : Tab α) (k : Nat) (f : α → α) : Tab α := tset d t k (f (tget d t k))

/-- Every key of the table is above `k`. -/
def keysAbove {α : Type} (k : Nat) (t : Tab α) : Bool := t.all (fun e => decide (k < e.1))

/-- The canonical form: keys strictly rising, no entry equal to its key's default. -/
def tabWf {α : Type} [DecidableEq α] (d : Nat → α) : Tab α → Bool
  | [] => true
  | (k, v) :: t => keysAbove k t && decide (v ≠ d k) && tabWf d t

/-! ### Byte-addressed memories (R6: multi-byte values are little-endian) -/

/-- What a byte of host memory that nothing has written reads as (DESIGN CHOICE, notes/assumptions/4.md). -/
def unlistedByte : Byte := 0

/-- One byte. -/
def readByte (m : List Host.Cell) (a : Nat) : Byte := tget unlistedByte m a

/-- One byte written; the canonical form is kept. -/
def writeByte (m : List Host.Cell) (a : Nat) (b : Byte) : List Host.Cell := tset unlistedByte m a b

/-- `n` bytes from address `a` as one little-endian number. -/
def readLE (m : List Host.Cell) : Nat → Nat → Nat
  | _, 0 => 0
  | a, n + 1 => (readByte m a).toNat + 256 * readLE m (a + 1) n

/-- The low `n` bytes of `v` written from address `a`, least significant first. -/
def writeLE (m : List Host.Cell) : Nat → Nat → Nat → List Host.Cell
  | _, 0, _ => m
  | a, n + 1, v => writeLE (writeByte m a (BitVec.ofNat 8 v)) (a + 1) n (v / 256)

/-- `n` bytes from address `a`. -/
def readBytes (m : List Host.Cell) : Nat → Nat → List Byte
  | _, 0 => []
  | a, n + 1 => readByte m a :: readBytes m (a + 1) n

/-- Bytes written from address `a`. -/
def writeBytes (m : List Host.Cell) : Nat → List Byte → List Host.Cell
  | _, [] => m
  | a, b :: bs => writeBytes (writeByte m a b) (a + 1) bs

/-- The low `n` bytes of `v`, least significant first. -/
def bytesOf : Nat → Nat → List Byte
  | 0, _ => []
  | n + 1, v => BitVec.ofNat 8 v :: bytesOf n (v / 256)

/-- The number a list of bytes spells, least significant first. -/
def ofBytes : List Byte → Nat
  | [] => 0
  | b :: bs => b.toNat + 256 * ofBytes bs

/-! ### CRC-32C (R73) -/

/-- One bit step of the reflected CRC-32C register. -/
def crcBit (c : BitVec 32) : BitVec 32 := if c.getLsbD 0 then (c >>> 1) ^^^ 0x82F63B78#32 else c >>> 1

/-- One byte into the register. -/
def crcByte (c : BitVec 32) (b : Byte) : BitVec 32 :=
  crcBit (crcBit (crcBit (crcBit (crcBit (crcBit (crcBit (crcBit (c ^^^ b.setWidth 32))))))))

/-- The running register over bytes. -/
def crcRun (c : BitVec 32) (bs : List Byte) : BitVec 32 := bs.foldl crcByte c

/-- The frank of a run of bytes. -/
def crc32c (bs : List Byte) : BitVec 32 := ~~~ (crcRun 0xFFFFFFFF#32 bs)

end Sys2Proof.Machine
end

