-- ==== Sys2Proof/Machine/Crypto.lean ====
section
/-! DEFINITION. SHA-256, MGF1 and RSASSA-PSS verification, which the spec names by their standards (R188, R439). Their
algorithms are those of the named standards (PRESUMED, notes/assumptions/9.md). -/

namespace Sys2Proof.Machine

/-- The 32-bit words of a number, the most significant of `n` first. -/
def wordsFrom (v : Nat) : Nat → List Nat
  | 0 => []
  | n + 1 => v / 2 ^ (32 * n) % 2 ^ 32 :: wordsFrom v n

/-- The round constants of SHA-256, sixteen to a number. -/
def shaK : List Nat :=
  wordsFrom 0x428a2f9871374491b5c0fbcfe9b5dba53956c25b59f111f1923f82a4ab1c5ed5d807aa9812835b01243185be550c7dc372be5d7480deb1fe9bdc06a7c19bf174 16
  ++ wordsFrom 0xe49b69c1efbe47860fc19dc6240ca1cc2de92c6f4a7484aa5cb0a9dc76f988da983e5152a831c66db00327c8bf597fc7c6e00bf3d5a7914706ca635114292967 16
  ++ wordsFrom 0x27b70a852e1b21384d2c6dfc53380d13650a7354766a0abb81c2c92e92722c85a2bfe8a1a81a664bc24b8b70c76c51a3d192e819d6990624f40e3585106aa070 16
  ++ wordsFrom 0x19a4c1161e376c082748774c34b0bcb5391c0cb34ed8aa4a5b9cca4f682e6ff3748f82ee78a5636f84c878148cc7020890befffaa4506cebbef9a3f7c67178f2 16

/-- The initial hash value. -/
def shaInit : List Nat :=
  [0x6a09e667, 0xbb67ae85, 0x3c6ef372, 0xa54ff53a, 0x510e527f, 0x9b05688c, 0x1f83d9ab, 0x5be0cd19]

/-- Rotation of a 32-bit word to the right. -/
def rotr (x n : Nat) : Nat := ((x >>> n) ||| (x <<< (32 - n))) % 2 ^ 32

/-- A number from bytes, most significant first. -/
def ofBytesBE (bs : List Byte) : Nat := bs.foldl (fun n b => n * 256 + b.toNat) 0

/-- `n` bytes of `v`, most significant first. -/
def bytesBE (n v : Nat) : List Byte := (bytesOf n v).reverse

/-- Message padding to whole 64-byte blocks. -/
def shaPad (m : List Byte) : List Byte :=
  m ++ [0x80#8] ++ List.replicate ((119 - m.length % 64) % 64) 0#8 ++ bytesBE 8 (8 * m.length)

/-- The next message-schedule word; the schedule is kept newest first. -/
def shaNextW (w : List Nat) : Nat :=
  let a := w.getD 14 0
  let b := w.getD 1 0
  let s0 := rotr a 7 ^^^ rotr a 18 ^^^ (a >>> 3)
  let s1 := rotr b 17 ^^^ rotr b 19 ^^^ (b >>> 10)
  (w.getD 15 0 + s0 + w.getD 6 0 + s1) % 2 ^ 32

/-- The message schedule, newest first, grown by `n` words. -/
def shaGrow : Nat → List Nat → List Nat
  | 0, w => w
  | n + 1, w => shaGrow n (shaNextW w :: w)

/-- One round on the working variables. -/
def shaRound (v : List Nat) (kw : Nat × Nat) : List Nat :=
  match v with
  | [a, b, c, d, e, f, g, h] =>
    let s1 := rotr e 6 ^^^ rotr e 11 ^^^ rotr e 25
    let ch := (e &&& f) ^^^ ((2 ^ 32 - 1 - e) &&& g)
    let t1 := h + s1 + ch + kw.1 + kw.2
    let s0 := rotr a 2 ^^^ rotr a 13 ^^^ rotr a 22
    let maj := (a &&& b) ^^^ (a &&& c) ^^^ (b &&& c)
    [(t1 + s0 + maj) % 2 ^ 32, a, b, c, (d + t1) % 2 ^ 32, e, f, g]
  | _ => v

/-- Big-endian 32-bit words of a block, newest first on `acc`. -/
def shaWords : Nat → List Byte → List Nat → List Nat
  | 0, _, acc => acc
  | n + 1, bs, acc => shaWords n (bs.drop 4) (ofBytesBE (bs.take 4) :: acc)

/-- One 64-byte block. -/
def shaBlock (h : List Nat) (b : List Byte) : List Nat :=
  let w := (shaGrow 48 (shaWords 16 b [])).reverse
  let v := (List.zip shaK w).foldl shaRound h
  List.zipWith (fun x y => (x + y) % 2 ^ 32) h v

/-- Blocks, with fuel of one per block. -/
def shaBlocks : Nat → List Nat → List Byte → List Nat
  | 0, h, _ => h
  | n + 1, h, bs => shaBlocks n (shaBlock h (bs.take 64)) (bs.drop 64)

/-- SHA-256 as its 32 bytes in the order the digest is written. -/
def sha256 (m : List Byte) : List Byte :=
  let p := shaPad m
  (shaBlocks (p.length / 64) shaInit p).flatMap (bytesBE 4)

/-- A digest as the little-endian number its 32 bytes spell. -/
def sha256Num (m : List Byte) : BitVec 256 := BitVec.ofNat 256 (ofBytes (sha256 m))

/-- MGF1 with SHA-256: `n` blocks from counter `c`. -/
def mgf1 (seed : List Byte) : Nat → Nat → List Byte
  | 0, _ => []
  | n + 1, c => sha256 (seed ++ bytesBE 4 c) ++ mgf1 seed n (c + 1)

/-- `b ^ e mod m` by squaring, `n` bits of exponent from the top. -/
def powMod (b e m : Nat) : Nat → Nat
  | 0 => 1 % m
  | n + 1 =>
    let r := powMod b (e / 2) m n
    if e % 2 = 1 then r * r % m * b % m else r * r % m

/-- EMSA-PSS verification for a 384-byte block with a 32-byte salt. -/
def pssVerify (em hash : List Byte) : Bool :=
  let db := em.take 351
  let h := (em.drop 351).take 32
  let mask := (mgf1 h 11 0).take 351
  let un := List.zipWith (fun a b => a ^^^ b) db mask
  let un := un.mapIdx (fun i b => if i = 0 then b &&& 0x7F#8 else b)
  decide (em.length = 384) && em.getLast? == some 0xBC#8 && decide ((em.headD 0xFF#8) < 0x80#8)
    && (un.take 318).all (fun b => b == 0#8) && un.getD 318 0 == 1#8
    && decide (sha256 (List.replicate 8 0#8 ++ hash ++ un.drop 319) = h)

/-- RSASSA-PSS, SHA-256, public exponent 65,537, a little-endian 384-byte modulus and signature (R439, Table 20.6). -/
def rsaPssVerify (modulus signature : Nat) (msg : List Byte) : Bool :=
  decide (signature < modulus) && pssVerify (bytesBE 384 (powMod signature 65537 modulus 17)) (sha256 msg)

end Sys2Proof.Machine
end

