-- ==== Sys2Proof/Config.lean ====
section
/-! DEFINITION. What each part fixes for itself, and the values the spec leaves open. Every constant here is opaque: nothing can
evaluate it, so a statement about it holds whatever it is. -/

namespace Sys2Proof.Config

/-- SYS_SERIAL, the PCIe Device Serial Number, "per part" (Table 21.2). -/
opaque serial : BitVec 64

/-- SYS_ID.GRADE, "per part": set in a VT-S128-EA (Table 21.3). -/
opaque gradeEA : Bool

/-- The root hashes programmed at the factory (R442, R495). -/
opaque rootHash : Nat → BitVec 256

/-- A value the spec leaves open, drawn afresh for each use: by the place that draws it and the draw's number
(notes/assumptions/2.md). -/
opaque freeNat : Nat → Nat → Nat

/-- The quote signature over 256 bytes under the part's identity key, made at the factory (R445, R446). -/
opaque attestSignature : Nat → Nat → Nat

/-- The payload of the Clerk image and of other images that leave their layout unpublished: byte `i` of image `hash`. -/
opaque imageByte : BitVec 256 → Nat → BitVec 8

/-- A byte of the NOR flash as the part was delivered (00_scope.md: the flash is another part). -/
opaque norByte : Nat → BitVec 8

/-- The items (kind, index, value) that a default configuration image holds; its payload's layout is unpublished (R435). -/
opaque imageItems : BitVec 256 → List (Nat × Nat × Nat)

/-- The fixed polarity pattern of a MARKER block, which Table 13.2 names and does not give. -/
opaque markerPattern : BitVec 16

/-- Bit `n` that arrives at a Courier receive lane (port * 4 + lane): what the far end sends is not the device's. -/
opaque courierBit : Nat → Nat → Bool

end Sys2Proof.Config
end

