-- ==== Sys2Proof/Machine/Regs.lean ====
section
/-! DEFINITION. The set-up registers: their addresses in the PF window (Table 21.1), their reset values, and the one home each
read-write register and each read-to-clear counter has in the state. -/

namespace Sys2Proof.Machine

/-! ### Addresses -/

/-- Grant block of VF v, 1 to 32, at byte `off` (Table 11.2, R459). -/
def aGrant (v off : Nat) : Nat := 0x2400 + 32 * (v - 1) + off
/-- Ring-set block k at byte `off` (Table 11.3). -/
def aRs (k off : Nat) : Nat := 0x3000 + 64 * k + off
def aEvtVector : Nat := 0x2004
def aDelayTick : Nat := 0x4004
def aSoPauses : Nat := 0x4008
/-- SO_VF_QUOTA_v, v = 1 to 32 (Table 12.5). -/
def aVfQuota (v : Nat) : Nat := 0x4010 + 4 * (v - 1)
def aClkUnlocks : Nat := 0x1008
def aEdgeMerge (c : Nat) : Nat := 0x1400 + 8 * c
def aEdgeOrder (c : Nat) : Nat := 0x1404 + 8 * c
def aMcCtrl : Nat := 0x5004
def aMcIdle : Nat := 0x5008
def aMcCorr (c : Nat) : Nat := 0x5050 + 4 * c
def aMcUncorr (c : Nat) : Nat := 0x5060 + 4 * c
/-- Port p of the COU block at byte `off` (Table 13.9). -/
def aCou (p off : Nat) : Nat := 0x6000 + 0x100 * p + off
def aCouMode : Nat := 0x6400
def aPtuCtrl : Nat := 0x7000
def aPtuHostSec : Nat := 0x7020
def aPtuAsym (p : Nat) : Nat := 0x7030 + 4 * p
def aMatchSel : Nat := 0x7060
def aMatchLate : Nat := 0x706C
/-- Generator g at byte `off`: 0 START seconds, 8 START TU, 0x10 PERIOD, 0x18 CTRL (Table 14.3). -/
def aGen (g off : Nat) : Nat := 0x7080 + 0x20 * g + off
def aFcQuiet (k : Nat) : Nat := 0x8060 + 4 * k
def aFcSrc (n : Nat) : Nat := 0x8200 + 4 * n
def aCalCtrl : Nat := 0x9000
def aCalDt : Nat := 0x9004
def aCalMaxAge : Nat := 0x9008
def aCalGroupCtrl (g : Nat) : Nat := 0x90C0 + 4 * g
def aCalLoopErr (c : Nat) : Nat := 0x9100 + 4 * c
def aCalLoopCtrl (g : Nat) : Nat := 0x9300 + 4 * g
def aAdcCtrl : Nat := 0xA000
def aAdcThresh : Nat := 0xA00C
def aAdcVref : Nat := 0xA010
def aAdcWindow : Nat := 0xA014
def aAdcPairFails : Nat := 0xA018
def aAdcHkSel : Nat := 0xA030
def aClerkCtrl : Nat := 0xB004
def aCustCaps : Nat := 0xB008
def aCustLimit : Nat := 0xB00C
def aSwapTimeout : Nat := 0xB010
def aClerkCorr : Nat := 0xB018
def aClerkUncorr : Nat := 0xB01C
def aClerkAborts : Nat := 0xB028
def aClerkWaitMax : Nat := 0xB02C
def aCspInDrops : Nat := 0xC00C
def aCspCorr : Nat := 0xC010
def aSecRootData : Nat := 0xD040
def aPecPlays (g : Nat) : Nat := 0xE004 + 0x40 * g
def aPecWaits (g : Nat) : Nat := 0xE008 + 0x40 * g
def aTrgDead (i : Nat) : Nat := 0xF040 + 4 * i
def aTrgMerge (l : Nat) : Nat := 0xF080 + 4 * l

/-! ### The fault sources of Table 19.1 -/

/-- Class: 0 CORRECTED, 1 DEGRADED, 2 SITE, 3 DEVICE, 4 FATAL (R416). -/
def faultClass (n : Nat) : Nat :=
  if n < 16 then 2
  else if n ∈ [40, 41, 49, 51, 75, 84, 94] then 0
  else if n ∈ [35, 36, 42, 71, 73] then 2
  else if n ∈ [37, 45, 46, 53, 64, 65, 66, 67, 86, 88, 91, 93, 95] then 3
  else if n ∈ [77, 90, 92] then 4
  else 1

/-- Default reaction: 0 none, 1 log, 2 interrupt, 3 hold site, 4 park group, 5 stop device (Table 19.2). -/
def faultDefault (n : Nat) : Nat :=
  if n < 16 then 4
  else if n ∈ [40, 41, 51, 80, 81, 84, 94] then 0
  else if n ∈ [33, 35, 36, 38, 49, 50, 53, 54, 56, 57, 58, 59, 60, 61, 62, 63, 69, 74, 75, 78, 79, 82, 87] then 1
  else if n ∈ [77, 90, 92, 95] then 5
  else 2

/-- FC_SRC_n [3:0] after reset: the default reaction, and PIN_EN for classes SITE, DEVICE and FATAL (R415, R425). -/
def fcSrcReset (n : Nat) : Nat := faultDefault n + (if 2 ≤ faultClass n then 8 else 0)

/-! ### Reset values -/

/-- The reset value of the read-write register at a window address (Tables 11.3, 12.5, 13.9, 14.3, 15.8, 16.8, 17.5, 18.6,
19.5). -/
def regReset (a : Nat) : Nat :=
  if 0x3000 ≤ a ∧ a < 0x4000 then
    if a % 64 = 0x28 then 0x01010000 else if a % 64 = 0x30 then 0x06060606 else 0
  else if a = 0x4004 then 0xFA
  else if 0x4010 ≤ a ∧ a < 0x4090 ∧ a % 4 = 0 then 0x80
  else if a = 0x5004 then 0x00010010
  else if a = 0x5008 then 0x40
  else if 0x6000 ≤ a ∧ a < 0x6400 ∧ a % 0x100 = 0 then 3
  else if a = 0x7060 then 1
  else if 0x8060 ≤ a ∧ a < 0x8074 ∧ a % 4 = 0 then 0xFA0
  else if 0x8200 ≤ a ∧ a < 0x8380 ∧ a % 4 = 0 then fcSrcReset ((a - 0x8200) / 4)
  else if a = 0x9000 then 0xF
  else if a = 0x9004 then 0x10
  else if a = 0x9008 then 0x5A0
  else if a = 0x901C then 0x140
  else if a = 0x9020 then 0x200
  else if a = 0xA000 then 1
  else if a = 0xA00C then 0x40
  else if a = 0xA014 then 0x1F4
  else if a = 0xB004 then 1
  else if a = 0xB008 then 3
  else if a = 0xB00C then 0x3E8
  else if a = 0xB010 then 0x64
  else 0

/-! ### Access -/

/-- The value of the read-write register at a window address. -/
def State.reg (s : State) (a : Nat) : Nat := (tget (BitVec.ofNat 32 (regReset a)) s.regs a).toNat

/-- Set a register. -/
def State.setReg (s : State) (a v : Nat) : State :=
  { s with regs := tset (BitVec.ofNat 32 (regReset a)) s.regs a (BitVec.ofNat 32 v) }

/-- A 64-bit register, low half at `a`. -/
def State.reg64 (s : State) (a : Nat) : Nat := s.reg a + 2 ^ 32 * s.reg (a + 4)

/-- Set a 64-bit register. -/
def State.setReg64 (s : State) (a v : Nat) : State := (s.setReg a (v % 2 ^ 32)).setReg (a + 4) (v / 2 ^ 32)

/-- A read-to-clear counter. -/
def State.rcOf (s : State) (a : Nat) : Nat := tget 0 s.rc a

/-- Set a read-to-clear counter. -/
def State.setRc (s : State) (a v : Nat) : State := { s with rc := tset 0 s.rc a v }

/-- Count `n` more, saturating at 0xFFFF_FFFF. -/
def State.rcAdd (s : State) (a n : Nat) : State := s.setRc a (satAdd 32 (s.rcOf a) n)

/-- Count in a 16-bit half of a register whose halves saturate separately. -/
def State.rcAddHalf (s : State) (a lo : Nat) : State :=
  s.setRc a (putFld (s.rcOf a) lo 16 (satAdd 16 (fld (s.rcOf a) lo 16) 1))

/-- Something leaves the device. -/
def State.emit (s : State) (e : Emit) : State := { s with out := e :: s.out }

/-! ### Homes of the indexed pieces -/

def State.site (s : State) (k : Nat) : Site := tget Site.reset s.sites k
def State.setSite (s : State) (k : Nat) (x : Site) : State := { s with sites := tset Site.reset s.sites k x }
def State.modSite (s : State) (k : Nat) (f : Site → Site) : State := s.setSite k (f (s.site k))
def State.chan (s : State) (c : Nat) : Chan := tget Chan.reset s.chans c
def State.setChan (s : State) (c : Nat) (x : Chan) : State := { s with chans := tset Chan.reset s.chans c x }
def State.modChan (s : State) (c : Nat) (f : Chan → Chan) : State := s.setChan c (f (s.chan c))
def State.slot (s : State) (k : Nat) : Slot := tget Slot.reset s.slots k
def State.setSlot (s : State) (k : Nat) (x : Slot) : State := { s with slots := tset Slot.reset s.slots k x }
def State.group (s : State) (g : Nat) : Group := tget Group.reset s.groups g
def State.setGroup (s : State) (g : Nat) (x : Group) : State := { s with groups := tset Group.reset s.groups g x }
def State.modGroup (s : State) (g : Nat) (f : Group → Group) : State := s.setGroup g (f (s.group g))
def State.rs (s : State) (k : Nat) : RingSet := tget RingSet.reset s.hif.rings k
def State.setRs (s : State) (k : Nat) (x : RingSet) : State :=
  { s with hif := { s.hif with rings := tset RingSet.reset s.hif.rings k x } }
def State.modRs (s : State) (k : Nat) (f : RingSet → RingSet) : State := s.setRs k (f (s.rs k))
def State.stream (s : State) (k : Nat) : Stream := tget Stream.reset s.acq.streams k
def State.setStream (s : State) (k : Nat) (x : Stream) : State :=
  { s with acq := { s.acq with streams := tset Stream.reset s.acq.streams k x } }
def State.modStream (s : State) (k : Nat) (f : Stream → Stream) : State := s.setStream k (f (s.stream k))
def State.port (s : State) (p : Nat) : Port := tget Port.reset s.ports p
def State.setPort (s : State) (p : Nat) (x : Port) : State := { s with ports := tset Port.reset s.ports p x }
def State.modPort (s : State) (p : Nat) (f : Port → Port) : State := s.setPort p (f (s.port p))
def State.src (s : State) (n : Nat) : Src := tget Src.reset s.fc.srcs n
def State.setSrc (s : State) (n : Nat) (x : Src) : State :=
  { s with fc := { s.fc with srcs := tset Src.reset s.fc.srcs n x } }
def State.rank (s : State) (c r : Nat) : Rank := tget Rank.reset s.mem.ranks (c * 4 + r)
def State.setRank (s : State) (c r : Nat) (x : Rank) : State :=
  { s with mem := { s.mem with ranks := tset Rank.reset s.mem.ranks (c * 4 + r) x } }
def State.ctx (s : State) (k : Nat) : Ctx := tget Ctx.reset s.clerk.ctxs k
def State.setCtx (s : State) (k : Nat) (x : Ctx) : State :=
  { s with clerk := { s.clerk with ctxs := tset Ctx.reset s.clerk.ctxs k x } }
def State.gen (s : State) (g : Nat) : Gen := tget Gen.reset s.ptu.gens g
def State.setGen (s : State) (g : Nat) (x : Gen) : State :=
  { s with ptu := { s.ptu with gens := tset Gen.reset s.ptu.gens g x } }
def State.mgroup (s : State) (g : Nat) : MatchGroup := tget MatchGroup.reset s.tree.groups g
def State.setMgroup (s : State) (g : Nat) (x : MatchGroup) : State :=
  { s with tree := { s.tree with groups := tset MatchGroup.reset s.tree.groups g x } }

/-- The next free value drawn at place `tag` (notes/assumptions/2.md). -/
def State.free (s : State) (tag : Nat) : Nat := Config.freeNat tag s.freeCount

/-- The state after a free value has been drawn. -/
def State.drawn (s : State) : State := { s with freeCount := s.freeCount + 1 }

end Sys2Proof.Machine
end

