-- ==== Sys2Proof/Machine/Ops.lean ====
section
/-! DEFINITION. The shared operations: time, committed items, rings and interrupts, events, marks, faults, completions and the
readiness of tasks. -/

namespace Sys2Proof.Machine

/-! ### Time -/

/-- The moment `t` has come: the root clock never runs back. -/
def State.advance (s : State) (t : Nat) : State := { s with now := max s.now t }

/-- System time at root TU `x`, in units of 2^-48 TU (R314). -/
def ptuUnits (p : Ptu) (x : Nat) : Nat :=
  if p.started then p.anchor + (((x : Int) - p.anchorAt) * ((2 ^ 48 : Nat) + p.rate)).toNat else 0

/-- System time at root TU `x`, to 1 TU (R314). -/
def ptuTuAt (p : Ptu) (x : Nat) : Nat := ptuUnits p x / 2 ^ 48

/-- System time now, in TU. -/
def State.ptuNow (s : State) : Nat := ptuTuAt s.ptu s.now

/-- The first root TU at which system time reaches `v` TU under the rate word in force (R333). -/
def rootOfPtu (p : Ptu) (v : Nat) : Nat :=
  p.anchorAt + ceilDiv (v * 2 ^ 48 - p.anchor) ((2 ^ 48 : Nat) + p.rate).toNat

/-- Seconds and TU of a time as completions carry it: TU in [42:0], seconds modulo 2^37 above (Table 11.10). -/
def time80 (t : Nat) : Nat := t % tuPerSec + 2 ^ 43 * (t / tuPerSec % 2 ^ 37)

/-- Seconds and TU as events and logs carry it: seconds modulo 2^21 (Table 11.11). -/
def time64 (t : Nat) : Nat := t % tuPerSec + 2 ^ 43 * (t / tuPerSec % 2 ^ 21)

/-- Seconds [47:0] and TU [42:0] in 12 bytes (Table 9.5). -/
def time96 (sec tu : Nat) : Nat := sec % 2 ^ 48 + 2 ^ 48 * tu

/-! ### Committed items (Table 8.1) -/

/-- Key of an item. -/
def itemKey (kind idx : Nat) : Nat := kind * 65536 + idx

/-- An item's value after device reset: zero, but for START_DELAY 320,000 and an unused START_LIST (R497) and FLUSH 100 (R191). -/
def itemReset (kind idx : Nat) : Nat :=
  if kind = 4 then 320000 * 2 ^ 256 + (2 ^ 128 - 1) * 2 ^ 320
  else if kind = 11 ∧ idx = 0 then 100 * 2 ^ 304
  else 0

/-- A committed item. -/
def State.item (s : State) (kind idx : Nat) : Nat := tget (itemReset kind idx) s.cfg.committed (itemKey kind idx)

/-- The committed set with an item set. -/
def setItem (t : Tab Nat) (kind idx v : Nat) : Tab Nat := tset (itemReset kind idx) t (itemKey kind idx) v

/-- The site response word RESPONSE, tracking word TRACKING and members of a site (Table 8.2). -/
def State.members (s : State) (k : Nat) : Nat := fld (s.item 4 k) 0 128
def State.siteMode (s : State) (k : Nat) : Nat := fld (s.item 6 k) 0 32
def State.chanMode (s : State) (c : Nat) : Nat := fld (s.item 6 (32 + c)) 0 16
def State.deviceMode (s : State) : Nat := fld (s.item 6 160) 0 32
/-- Channel words item of a channel (Table 8.3). -/
def State.words (s : State) (c : Nat) : Nat := s.item 9 c
/-- The device stream setup (Table 9.1). -/
def State.setup (s : State) : Nat := s.item 11 0

/-- The channels of a site, ascending (the site's position order). -/
def State.siteChans (s : State) (k : Nat) : List Nat := bitsOf 128 (s.members k)

/-- The site that holds a channel, if any (R18). -/
def State.siteOf (s : State) (c : Nat) : Option Nat := (List.range 32).find? (fun k => (s.members k).testBit c)

/-- The sites with a channel in group g. -/
def State.groupSites (s : State) (g : Nat) : List Nat :=
  (List.range 32).filter (fun k => decide (fld (s.members k) (8 * g) 8 ≠ 0))

/-- The groups in which a site has a channel. -/
def State.siteGroups (s : State) (k : Nat) : List Nat :=
  (List.range 16).filter (fun g => decide (fld (s.members k) (8 * g) 8 ≠ 0))

/-! ### Functions (R234, R235) -/

/-- The function that holds ring set k: 0 the PF, v for VF v (R234). -/
def State.rsFn (s : State) (k : Nat) : Nat := if k < 32 then 0 else fld (s.reg (aRs k 0x34)) 0 6

/-- The function that holds a site, by the SITES bits in force (R235, R236). -/
def State.siteFn (s : State) (k : Nat) : Nat := tget 0 s.hif.holder k

/-! ### Rings -/

/-- log2 of ring `r` of set `k`: 0 command, 1 completion, 2 stream, 3 event (Table 11.4). -/
def State.ringLog (s : State) (k r : Nat) : Nat := fld (s.reg (aRs k 0x30)) (8 * r) 5

/-- Length of a ring. -/
def State.ringLen (s : State) (k r : Nat) : Nat := 2 ^ s.ringLog k r

/-- Where the base register of a ring stands. -/
def aRingBase (k r : Nat) : Nat := aRs k (if r = 3 then 0x38 else 8 * r)

/-- Base of a ring in host memory. -/
def State.ringBase (s : State) (k r : Nat) : Nat := s.reg64 (aRingBase k r)

/-- Host address of entry `i` of a ring whose entries take `size` bytes (R241). -/
def State.entryAddr (s : State) (k r size i : Nat) : Nat := s.ringBase k r + i % s.ringLen k r * size

/-- A task of ring set k; one that arrived over Courier is of none. -/
def ofRing (k : Nat) (t : Task) : Bool := t.hdr.rs.val == k && !t.courier

/-- Tasks of ring set k: envelopes fetched and not yet completed (Table 11.4). -/
def State.rsTasks (s : State) (k : Nat) : Nat := s.so.tasks.countP (fun t => ofRing k t && t.st != .completing)

/-- Code of a ring-set state (Table 11.4). -/
def rsCode : RsState → Nat
  | .disabled => 0
  | .enabled => 1
  | .shuttingDown => 2

/-- HIF_RS_STATUS_k (Table 11.4). -/
def State.rsStatus (s : State) (k : Nat) : Nat :=
  let r := s.rs k
  rsCode r.st + 4 * b2n r.enablePending
    + maskOf 4 (fun i => (tget none r.resize i).isSome) * 8 + s.rsTasks k % 4096 * 65536

/-- Write bytes into host memory. -/
def State.hostWrite (s : State) (a n v : Nat) : State := { s with host := writeLE s.host a n v }

/-- The write-back area of a ring set brought up to date (Table 11.5). -/
def State.writeBack (s : State) (k : Nat) : State :=
  let r := s.rs k
  let v := r.cmdCons.toNat + 2 ^ 32 * r.cplProd.toNat + 2 ^ 64 * r.strCons.toNat + 2 ^ 96 * s.rsStatus k
    + (if k = 0 then 2 ^ 128 * s.hif.evtProd.toNat else 0)
  s.hostWrite (s.reg64 (aRs k 0x18)) 20 v

/-- Send the message of a function's MSI-X vector: a vector beyond the table disables signalling, a masked one sets its
pending bit (R254). -/
def State.msix (s : State) (fn v : Nat) : State :=
  if v ≥ (if fn = 0 then 128 else 4) then s
  else if (fn * 128 + v) ∈ s.hif.unmasked then s.emit (.msix fn v)
  else { s with hif := { s.hif with msixPending := if (fn * 128 + v) ∈ s.hif.msixPending then s.hif.msixPending
    else (fn * 128 + v) :: s.hif.msixPending } }

/-- Whether ring `r` of set `k` signals, and its vector: the completion and stream rings by HIF_RS_IRQ_k, the event ring by
HIF_EVT_VECTOR. -/
def State.ringVector (s : State) (k r : Nat) : Option (Nat × Nat) :=
  if r = 3 then
    let v := s.reg aEvtVector
    if v.testBit 7 then some (0, fld v 0 7) else none
  else
    let v := s.reg (aRs k 0x28)
    let lo := if r = 1 then 0 else 8
    if v.testBit (lo + 7) then some (s.rsFn k, fld v lo 7) else none

/-- Send a ring's signal now and start its count afresh. -/
def State.signalRing (s : State) (k r : Nat) : State :=
  let s := if r = 3 then { s with hif := { s.hif with evtSigCount := 0, evtSigFirst := none } }
    else s.modRs k (fun x => { x with sigCount := tset 0 x.sigCount r 0, sigFirst := tset none x.sigFirst r none })
  match s.ringVector k r with
  | some (fn, v) => s.msix fn v
  | none => s

/-- Entries written since the ring's last signal, and when the first was. -/
def State.sigState (s : State) (k r : Nat) : Nat × Option Nat :=
  if r = 3 then (s.hif.evtSigCount, s.hif.evtSigFirst) else (tget 0 (s.rs k).sigCount r, tget none (s.rs k).sigFirst r)

/-- An entry of a ring has been written: signal at once where asked, at COUNT entries, or with TIME_US 0 (R254). -/
def State.entryWritten (s : State) (k r : Nat) (atOnce : Bool) : State :=
  let (c, f) := s.sigState k r
  let irq := s.reg (aRs k 0x28)
  if atOnce || decide (max 1 (fld irq 16 8) ≤ c + 1) || decide (fld irq 24 8 = 0) then s.signalRing k r
  else
    let f := some (f.getD s.now)
    if r = 3 then { s with hif := { s.hif with evtSigCount := c + 1, evtSigFirst := f } }
    else s.modRs k (fun x => { x with sigCount := tset 0 x.sigCount r (c + 1), sigFirst := tset none x.sigFirst r f })

/-! ### Events (R253) -/

/-- The event ring exists and has a free entry. -/
def State.evtRoom (s : State) : Bool :=
  decide ((s.rs 0).st ≠ .disabled) && decide ((s.hif.evtProd - s.hif.evtCons).toNat < s.ringLen 0 3)

/-- Write one event entry (Table 11.11). -/
def State.writeEvent (s : State) (code arg detail : Nat) : State :=
  let e := code % 65536 + 65536 * (arg % 65536) + 2 ^ 32 * (detail % 2 ^ 32) + 2 ^ 64 * time64 s.ptuNow
  let s := s.hostWrite (s.entryAddr 0 3 16 s.hif.evtProd.toNat) 16 e
  let s := { s with hif := { s.hif with evtProd := s.hif.evtProd + 1 } }
  (s.writeBack 0).entryWritten 0 3 false

/-- Once there is room again, the count of the events not written goes before any other event (R253). -/
def State.flushLost (s : State) : State :=
  if s.hif.evtLost != 0 && s.evtRoom then
    let t := s.writeEvent 0x000E 0 (min s.hif.evtLost (2 ^ 32 - 1))
    { t with hif := { t.hif with evtLost := 0 } }
  else s

/-- Write an event where the ring has room; otherwise count it. The flag tells that it was lost. -/
def State.tryEvent (s : State) (code arg detail : Nat) : State × Bool :=
  let s := s.flushLost
  if s.evtRoom && s.hif.evtLost == 0 then (s.writeEvent code arg detail, false)
  else ({ s with hif := { s.hif with evtLost := s.hif.evtLost + 1 } }, true)

/-! ### Records, device record queue and marks (R189, R198) -/

/-- A GAP record (Table 9.9). -/
def gapRecord (reason n : Nat) : BitVec 64 := BitVec.ofNat 64 (5 * 2 ^ 61 + reason * 2 ^ 56 + n % 2 ^ 56)

/-- Kind of a record. -/
def recKind (r : BitVec 64) : Nat := r.toNat / 2 ^ 61

/-- Records a queue holds, the GAP records it has inserted before them apart. -/
def qLen (q : List (BitVec 64)) : Nat := q.countP (fun r => recKind r != 5)

/-- A record enters a queue of `cap` records; a full queue drops and counts it, and the count goes ahead of the next record
as a GAP (R115, R143). -/
def enqueue (cap reason : Nat) (q : List (BitVec 64)) (gap : Nat) (r : BitVec 64) : List (BitVec 64) × Nat :=
  if cap ≤ qLen q then (q, gap + 1)
  else if gap = 0 then (q ++ [r], 0)
  else (q ++ [gapRecord reason gap, r], 0)

/-- A record enters the device record queue of 1,024 records, bound for a stream; the GAP of a loss goes to MARK_STREAM
(R198). -/
def State.devPush (s : State) (r : BitVec 64) (stream : Nat) : State :=
  let a := s.acq
  if 1024 ≤ qLen (a.devQ.map (·.1)) then { s with acq := { a with devDrop := a.devDrop + 1 } }
  else if a.devDrop = 0 then { s with acq := { a with devQ := a.devQ ++ [(r, stream)] } }
  else { s with acq := { a with devQ := a.devQ ++ [(gapRecord 7 a.devDrop, fld s.setup 288 4), (r, stream)], devDrop := 0 } }

/-- A MARK record of a source at a root time, for a stream (R196). -/
def markRecord (source t epoch : Nat) : BitVec 64 :=
  BitVec.ofNat 64 (2 * 2 ^ 61 + source * 2 ^ 56 + (((t : Int) - epoch) % (2 ^ 53 : Nat)).toNat)

/-- A mark for a stream: where the stream is not open it has no epoch, is not formed, and is counted (R195, R196). -/
def State.mark (s : State) (stream source t : Nat) : State :=
  let x := s.stream stream
  if x.isOpen then s.devPush (markRecord source t x.epoch) stream
  else s.modStream stream (fun x => { x with notOpen := x.notOpen + 1 })

/-! ### The reach of fault reactions -/

/-- The group of a source of group scope (Table 19.1). -/
def srcGroup (n : Nat) : Option Nat := if n < 16 then some n else if n < 32 then some (n - 16) else none

/-- A source acts on a group with a reaction of at least `lo` and at most `hi`. -/
def State.acts (s : State) (lo hi g : Nat) : Bool :=
  (List.range 96).any (fun n =>
    let x := s.src n
    x.active && decide (lo ≤ x.running) && decide (x.running ≤ hi)
      && (match srcGroup n with | some h => h == g || x.running == 5 | none => true))

/-- A park reaction holds the group (R19). -/
def State.groupParked (s : State) (g : Nat) : Bool := s.acts 4 5 g

/-- A group's newest temperature, in the units of its sensor. -/
def groupTemp (x : Group) : Int := x.temps.headD 0

/-- A group is asleep (R371). -/
def State.isAsleep (s : State) (g : Nat) : Bool := (s.reg (aCalGroupCtrl g)).testBit 0 || s.groupParked g

/-- Groups fall asleep and wake with their SLEEP bits and park reactions (R371). -/
def State.syncSleep (s : State) : State :=
  (List.range 16).foldl (fun s g =>
    let x := s.group g
    if s.isAsleep g then
      (if x.asleepAt.isNone then s.setGroup g { x with asleepAt := some s.now, asleepTemp := groupTemp x } else s)
    else (if x.asleepAt.isSome then s.setGroup g { x with asleepAt := none } else s)) s

/-! ### STATUS and ALERT_N (R425, R493) -/

/-- FAULT_N is driven low (R425). -/
def State.faultN (s : State) : Bool := (List.range 96).any (fun n => (s.src n).sticky && (s.reg (aFcSrc n)).testBit 3)

/-- A stop-device reaction is running. -/
def State.isStopped (s : State) : Bool := (List.range 96).any (fun n => (s.src n).active && (s.src n).running == 5)

/-- The STATUS byte of the SMBus target (Table 22.12). -/
def State.statusByte (s : State) : Nat :=
  b2n (s.boot.stage == 5) + 2 * b2n s.faultN + 4 * b2n s.boot.therm + 8 * b2n s.isStopped + 16 * b2n s.boot.thermLatched

/-- A change of the STATUS byte asserts ALERT_N. -/
def State.noteStatus (s : State) : State :=
  if s.statusByte = s.boot.smbStatus then s
  else { s with boot := { s.boot with smbStatus := s.statusByte, alertLow := true } }

/-! ### Faults (R418) -/

/-- FC_SRC_n.REACTION. -/
def State.reaction (s : State) (n : Nat) : Nat := fld (s.reg (aFcSrc n)) 0 3

/-- One assertion of a source; the flag tells that its FAULT event was lost. -/
def State.assertRaw (s : State) (n detail : Nat) (injected : Bool) : State × Bool :=
  let x := s.src n
  let starts := !x.active
  let fresh := !x.sticky
  let running := if starts then s.reaction n else x.running
  let y : Src := { x with
    sticky := true
    active := true
    running := running
    since := if starts then s.now else x.since
    lastAt := s.now
    injOnly := if injected then (fresh || x.injOnly) else false
    detail := if fresh then BitVec.ofNat 32 detail else x.detail
    firstAt := if fresh then time64 s.ptuNow else x.firstAt }
  let s := s.setSrc n y
  let s := if (fresh || starts) && (s.setup).testBit (192 + n) then s.mark (fld s.setup 288 4) 18 s.now else s
  let s := if (fresh || starts) && decide (1 ≤ running) then
      let e : FaultEntry := { source := n, reaction := running, injected := injected, detail := BitVec.ofNat 32 detail,
                              time := time64 s.ptuNow }
      { s with fc := { s.fc with log := (e :: s.fc.log).take 64 } }
    else s
  let s := (if starts && decide (4 ≤ running) then s.syncSleep else s).noteStatus
  if starts && decide (2 ≤ running) then s.tryEvent 1 n (faultClass n + 8 * b2n y.injOnly) else (s, false)

/-- One assertion of a source, with its log entry, mark and event (R418); a lost event asserts source 79 (R253). -/
def State.faultInj (s : State) (n detail : Nat) (injected : Bool) : State :=
  let (s, lost) := s.assertRaw n detail injected
  if lost then (s.assertRaw 79 0 false).1 else s

/-- A real assertion. -/
def State.fault (s : State) (n detail : Nat) : State := s.faultInj n detail false

/-- Detail of source 91 while the die is too hot (R419). -/
def State.thermHeld (s : State) : Option Nat := if 100 ≤ s.boot.thermTemp then some 0 else none

/-- A level source whose condition holds, with this detail, has recurred at the last management tick (R419). -/
def State.recur (s : State) (n : Nat) (held : Option Nat) : State :=
  let t := s.now / tuPerTick * tuPerTick
  match held with
  | some detail => if (s.src n).lastAt < t then { ({ s with now := t } : State).fault n detail with now := s.now } else s
  | none => s

/-- Post an event; where the ring cannot take it, it is counted and source 79 asserts (R253). -/
def State.event (s : State) (code arg detail : Nat) : State :=
  let (s, lost) := s.tryEvent code arg detail
  if lost then s.fault 79 0 else s

/-! ### Tasks (R256 to R263) -/

/-- Whether an operation is STOP or CANCEL, which no flow or fence holds (R262). -/
def isFree : Op → Bool
  | .stop _ => true
  | .cancel _ _ => true
  | _ => false

/-- The fence scope, for a FENCE. -/
def fenceScope : Op → Option Nat
  | .fence n => some n
  | _ => none

/-- Two tasks share a flow: flows are qualified by function, and flow 0 is none (R260). -/
def sameFlow (a b : Task) : Bool := a.fn == b.fn && a.hdr.flow == b.hdr.flow && a.hdr.flow != 0

/-- Task `b` lies in the scope of a fence carried by task `a` (R263). -/
def inScope (a : Task) (scope : Nat) (b : Task) : Bool := if scope = 0 then ofRing a.hdr.rs.val b else sameFlow a b

/-- Task `t` is held by the earlier task `e`: by its flow, or by a fence either of them carries (R261, R263). -/
def blockedBy (t e : Task) : Bool :=
  (sameFlow t e && !isFree e.op && !e.released)
    || (match fenceScope e.op with | some n => inScope e n t | none => false)
    || (match fenceScope t.op with | some n => inScope t n e | none => false)

/-- Task `t` is held by some earlier task of the list. -/
def isBlocked (ts : List Task) (t : Task) : Bool :=
  !isFree t.op && ts.any (fun e => decide (e.id < t.id) && blockedBy t e)

/-- Tasks that became READY together take their places by ring set, then command index, in whose order one ring set's envelopes are
fetched (R259, R260). -/
def readyBefore (a b : Task) : Bool :=
  decide (a.hdr.rs < b.hdr.rs) || (a.hdr.rs == b.hdr.rs && decide (a.id < b.id))

/-- Insertion into a list kept by `readyBefore`. -/
def insertReady (t : Task) : List Task → List Task
  | [] => [t]
  | u :: us => if readyBefore t u then t :: u :: us else u :: insertReady t us

/-- Every waiting task whose last blocker has cleared becomes READY. -/
def State.refresh (s : State) : State :=
  let ts := s.so.tasks
  let fresh := (ts.filter (fun t => t.st == .waiting && !isBlocked ts t)).foldr insertReady []
  let (ts', n) := fresh.foldl (fun (acc : List Task × Nat) f =>
    (acc.1.map (fun t => if t.id = f.id then { t with st := .ready, readySeq := acc.2 } else t), acc.2 + 1)) (ts, s.so.readySeq)
  { s with so := { s.so with tasks := ts', readySeq := n } }

/-- Free task slots (R256, R267). -/
def State.freeSlots (s : State) : Nat := 4096 - s.so.tasks.length

/-- PAUSED follows the free slots; a new pause counts in SO_PAUSES (R267). -/
def State.pauseCheck (s : State) : State :=
  let p := decide (s.freeSlots < 16)
  let s := if p && !s.so.paused then s.rcAdd aSoPauses 1 else s
  { s with so := { s.so with paused := p } }

/-- Write a completion entry, the write-back area and then the signal (R241, R250). -/
def State.writeCompletion (s : State) (t : Task) (status result : Nat) : State :=
  let k := t.hdr.rs.val
  let r := s.rs k
  let v := t.hdr.tag.toNat + 2 ^ 16 * (status % 65536) + 2 ^ 32 * t.hdr.flow.toNat + 2 ^ 48 * time80 s.ptuNow
    + 2 ^ 128 * (result % 2 ^ 128)
  let s := s.hostWrite (s.entryAddr k 1 32 r.cplProd.toNat) 32 v
  let s := s.modRs k (fun r => { r with cplProd := r.cplProd + 1 })
  (s.writeBack k).entryWritten k 1 t.hdr.irq

/-- A task ends: while it is COMPLETING its completion is written, unless it is QUIET and OK, and then its slot is freed (Tables 11.7
and 12.1, R256). One that arrived over Courier has no completion. -/
def State.endTask (s : State) (t : Task) (status result : Nat) : State :=
  let s := { s with so := { s.so with tasks := s.so.tasks.map (fun (u : Task) => if u.id = t.id then { u with st := .completing } else u) } }
  let s := if t.courier then s
    else if t.hdr.quiet && status == 0 then s.writeBack t.hdr.rs.val
    else s.writeCompletion t status result
  { s with so := { s.so with tasks := s.so.tasks.filter (fun u => u.id != t.id) } }

/-- A CANCEL completes once every task it cancelled has (R273). -/
def State.settleCancels (s : State) (id : Nat) : State :=
  let ts := s.so.tasks.map (fun t => { t with waitsFor := t.waitsFor.filter (· != id) })
  let done := (s.so.tasks.filter (fun t => decide (id ∈ t.waitsFor) && t.waitsFor.all (· == id)))
  let s := { s with so := { s.so with tasks := ts } }
  done.foldl (fun s t => s.endTask t (t.outcome.getD (0, 0)).1 (t.outcome.getD (0, 0)).2) s

/-- A task completes: COMPLETION_WRITE, and whatever waited for it moves on (R250, R261, R273). -/
def State.complete (s : State) (t : Task) (status result : Nat) : State :=
  ((((s.endTask t status result).settleCancels t.id)).refresh).pauseCheck

/-- The task with an id. -/
def State.task (s : State) (id : Nat) : Option Task := s.so.tasks.find? (fun t => t.id == id)

/-- Complete the task with an id, if it still holds a slot. -/
def State.completeId (s : State) (id status result : Nat) : State :=
  match s.task id with
  | some t => s.complete t status result
  | none => s

/-- Change the task with an id. -/
def State.modTask (s : State) (id : Nat) (f : Task → Task) : State :=
  { s with so := { s.so with tasks := s.so.tasks.map (fun t => if t.id = id then f t else t) } }

/-- A task reaches its release point (Table 12.3). -/
def State.release (s : State) (id : Nat) : State := (s.modTask id (fun t => { t with released := true })).refresh

/-- An engine's outcome is formed; its completion follows at the class's completion step. -/
def State.setOutcome (s : State) (id status result : Nat) : State :=
  s.modTask id (fun t => { t with outcome := some (status, result) })

end Sys2Proof.Machine
end

