-- ==== Sys2Proof/Machine/Operands.lean ====
section
/-! DEFINITION. The operand forms of the envelopes: how 64 bytes spell an operation (R245, Table 11.8), which engine class serves
it (Table 12.2), and the checks of a fetched envelope (R248, R433). -/

namespace Sys2Proof.Machine

/-- Byte-addressed field of an envelope: `n` bytes from byte `b`. -/
def bfld (v b n : Nat) : Nat := fld v (8 * b) (8 * n)

/-- The eight 32-bit operands of bytes 16 to 47. -/
def envArgs (e : Nat) : List Nat := (List.range 8).map (fun i => bfld e (16 + 4 * i) 4)

/-- The operation an envelope of 512 bits spells (Table 11.8). -/
def decodeOp (e : Nat) : Op :=
  match bfld e 0 1 with
  | 0x00 => .nop
  | 0x01 => .stageWrite (bfld e 8 1) (bfld e 10 2) (bfld e 12 4) (bfld e 16 8) (bfld e 24 4)
  | 0x02 => .stageRead (bfld e 8 1) (bfld e 9 1) (bfld e 10 1) (bfld e 12 4) (bfld e 16 4) (bfld e 20 4) (bfld e 24 8)
  | 0x03 => .check (bfld e 8 1) (bfld e 16 8) (bfld e 24 4)
  | 0x04 => .commit (bfld e 8 1) (e.testBit 72) (bfld e 10 1) (bfld e 11 1) (bfld e 12 4) (bfld e 16 2)
      (fld e 192 48) (fld e 240 43)
  | 0x05 => .abandon
  | 0x10 => .patternLoad (fld e 64 40) (bfld e 16 8)
  | 0x11 => .patternBroadcast (fld e 64 40) (bfld e 16 8)
  | 0x12 => .seal (bfld e 8 2) (bfld e 10 2)
  | 0x13 => .memCopy (fld e 64 40) (fld e 128 40) (fld e 192 40)
  | 0x20 => .run (bfld e 8 1) (bfld e 9 1) (bfld e 10 1) (e.testBit 88) (bfld e 12 2) (fld e 128 48) (fld e 176 43)
  | 0x21 => .stop (bfld e 8 1)
  | 0x22 => .arm (bfld e 8 1) (bfld e 9 1) (bfld e 12 2)
  | 0x30 => .streamOpen (bfld e 8 1)
  | 0x31 => .streamClose (bfld e 8 1) (bfld e 16 8)
  | 0x32 => .streamMark (bfld e 8 1) (e.testBit 72) (e.testBit 73) (bfld e 10 2)
  | 0x40 => .measure (bfld e 8 1) (bfld e 9 1) (bfld e 10 1) (bfld e 11 1) (bfld e 12 4) (e.testBit 128) (e.testBit 129)
      (e.testBit 130) (e.testBit 131) (bfld e 24 8)
  | 0x41 => .calibrate (bfld e 8 2) (fld e 80 3) (e.testBit 88) (e.testBit 89)
  | 0x42 => .eyeSurvey (bfld e 8 1) (bfld e 9 1) (e.testBit 80) (bfld e 12 4) (bfld e 16 16) (sfld e 256 32) (sfld e 288 32)
      (bfld e 40 4) (bfld e 44 2) (bfld e 48 8) (bfld e 56 8)
  | 0x50 => .delay (bfld e 8 4)
  | 0x51 => .fence (bfld e 8 1)
  | 0x52 => .cancel (bfld e 8 1) (bfld e 10 2)
  | 0x60 => .clerkCall (bfld e 8 2) (envArgs e)
  | 0x61 => .cspStart (bfld e 8 1) (envArgs e)
  | 0x70 => .nvmWrite (bfld e 8 1) (bfld e 12 4) (bfld e 16 4) (bfld e 24 8)
  | 0x71 => .nvmRead (bfld e 8 1) (bfld e 12 4) (bfld e 16 4) (bfld e 24 8)
  | 0x72 => .imageStage (bfld e 8 1) (bfld e 12 4) (bfld e 16 8)
  | 0x73 => .imageActivate (bfld e 8 1)
  | 0x74 => .attest (bfld e 8 32) (bfld e 40 8) (bfld e 48 4)
  | n => .unknown n

/-- Bytes 0 to 7 of an envelope of ring set k (Table 11.7). -/
def decodeHdr (k : Fin 64) (e : Nat) : Hdr :=
  { rs := k, prio := Fin.ofNat 8 (fld e 8 3), quiet := e.testBit 11, irq := e.testBit 12, flow := BitVec.ofNat 16 (bfld e 2 2),
    tag := BitVec.ofNat 16 (bfld e 4 2) }

/-- Engine class of an operation (Table 12.2). -/
def opClass : Op → Nat
  | .nop => 0
  | .delay _ => 0
  | .fence _ => 0
  | .cancel _ _ => 0
  | .stageWrite .. => 1
  | .stageRead .. => 1
  | .check .. => 1
  | .abandon => 1
  | .seal .. => 1
  | .commit .. => 2
  | .run .. => 3
  | .stop _ => 3
  | .arm .. => 3
  | .patternLoad .. => 4
  | .patternBroadcast .. => 4
  | .memCopy .. => 4
  | .streamOpen _ => 5
  | .streamClose .. => 5
  | .streamMark .. => 5
  | .measure .. => 6
  | .eyeSurvey .. => 6
  | .calibrate .. => 7
  | .clerkCall .. => 7
  | .nvmWrite .. => 7
  | .nvmRead .. => 7
  | .imageStage .. => 7
  | .imageActivate _ => 7
  | .attest .. => 7
  | .cspStart .. => 8
  | .unknown _ => 0

/-- Servers of a class; none for no limit (Table 12.2). -/
def classServers : Nat → Option Nat
  | 1 => some 2
  | 2 => some 1
  | 4 => some 4
  | 6 => some 8
  | 7 => some 4
  | 8 => some 1
  | _ => none

/-- Items a kind has (Table 8.1). -/
def kindRange : Nat → Nat
  | 1 => 8192
  | 2 => 512
  | 3 => 2048
  | 4 => 32
  | 5 => 32
  | 6 => 161
  | 7 => 65536
  | 8 => 64
  | 9 => 128
  | 10 => 16
  | 11 => 65
  | 12 => 256
  | _ => 0

/-- Size of an item in bytes; a PE script's depends on its COUNT (Table 8.1). -/
def itemSize (kind idx v : Nat) : Nat :=
  match kind with
  | 1 => 32
  | 2 => 64
  | 3 => 8
  | 4 => 64
  | 5 => 4
  | 6 => if idx < 32 then 4 else if idx < 160 then 2 else 4
  | 7 => 32
  | 8 => 8 + 8 * fld v 0 16
  | 9 => 64
  | 10 => 16
  | 11 => if idx = 0 then 64 else 16
  | 12 => 8
  | _ => 0

/-- Total size of consecutive items of a kind whose sizes are fixed. -/
def itemsSize (kind first count : Nat) : Nat := ((List.range count).map (fun i => itemSize kind (first + i) 0)).sum

/-- Survey points of a grid: levels times offsets (R163). -/
def surveyOffsets (oFirst oLast : Int) (oStep : Nat) : Nat := ((oLast - oFirst) / oStep).toNat + 1

/-- A host address breaks the 64-byte alignment of Table 11.8. -/
def unaligned (a : Nat) : Bool := a % 64 != 0

/-- An operand lies outside the range Table 11.8 gives for it, or a host address breaks its alignment (R248). -/
def opBad (h : Hdr) : Op → Bool
  | .nop => false
  | .stageWrite kind count index addr bytes =>
      unaligned addr || !(decide (1 ≤ count) && decide (count ≤ 8192) && decide (index + count ≤ kindRange kind))
        || (kind != 8 && bytes != itemsSize kind index count)
  | .stageRead form kind sect index count _ addr =>
      unaligned addr || decide (2 < form) || count == 0
        || (if form = 2 then decide (31 < kind) || decide (3 < sect) else decide (kindRange kind < index + count))
  | .check budget addr _ => unaligned addr || decide (1 < budget)
  | .commit form _ budget site _ _ _ tu =>
      decide (2 < form) || decide (1 < budget) || (form == 1 && decide (31 < site)) || (form == 2 && decide (tuPerSec ≤ tu))
  | .abandon => false
  | .patternLoad _ addr => unaligned addr
  | .patternBroadcast _ addr => unaligned addr
  | .seal first countM1 => decide (65535 < first + countM1)
  | .memCopy _ _ lines => lines == 0
  | .run site start input _ _ _ tu =>
      decide (31 < site) || decide (2 < start) || (start == 1 && decide (15 < input)) || (start == 2 && decide (tuPerSec ≤ tu))
  | .stop site => decide (31 < site)
  | .arm site form _ => decide (31 < site) || decide (1 < form)
  | .streamOpen stream => decide (15 < stream)
  | .streamClose stream addr => decide (15 < stream) || unaligned addr
  | .streamMark stream _ _ _ => decide (15 < stream)
  | .measure conv mux gain filter count urgent pairchk _ buffer addr =>
      decide (2 < conv) || decide (58 < mux) || decide (3 < gain) || decide (8 < filter) || count == 0
        || (buffer && unaligned addr) || (urgent && decide (4096 < count * 2 ^ filter))
        || (pairchk && (conv != 2 || decide (32 < mux)))
  | .calibrate .. => false
  | .eyeSurvey site levels _ dwell _ oFirst oLast oStep settle bufAddr paramAddr =>
      decide (31 < site) || levels == 0 || decide (64 < levels) || dwell == 0 || oStep == 0 || decide (1000 < settle)
        || decide (oLast < oFirst) || decide (4096 < levels * surveyOffsets oFirst oLast oStep)
        || unaligned bufAddr || unaligned paramAddr
  | .delay ticks => ticks == 0
  | .fence scope => decide (1 < scope) || (scope == 1 && h.flow == 0)
  | .cancel by_ _ => decide (1 < by_)
  | .clerkCall entry _ => !(decide (6144 ≤ entry) && decide (entry ≤ 8191))
  | .cspStart entry _ => decide (7 < entry)
  | .nvmWrite region _ _ addr => decide (9 < region) || unaligned addr
  | .nvmRead region _ _ addr => decide (9 < region) || unaligned addr
  | .imageStage kind _ addr => decide (2 < kind) || unaligned addr
  | .imageActivate kind => decide (2 < kind)
  | .attest _ addr _ => unaligned addr
  | .unknown _ => true

/-- Opcodes marked PF in Table 11.8. -/
def opPfOnly : Op → Bool
  | .patternBroadcast .. => true
  | .calibrate .. => true
  | .clerkCall .. => true
  | .cspStart .. => true
  | .nvmWrite .. => true
  | .nvmRead .. => true
  | .imageStage .. => true
  | .imageActivate _ => true
  | _ => false

/-- Opcodes of the limited service before READY (R433). -/
def opLimited : Op → Bool
  | .nop => true
  | .imageStage .. => true
  | .imageActivate _ => true
  | .nvmRead .. => true
  | .nvmWrite .. => true
  | .attest .. => true
  | _ => false

/-- The device's role by its straps: 0 Standalone, 1 Postmaster, 2 Branch; Standalone where the straps are invalid (R431). -/
def State.role (s : State) : Nat := if s.boot.strapInvalid then 0 else fld s.boot.straps.toNat 0 2

/-- The tree runs in forwarded mode: COU_MODE on a Postmaster, the CLOCK field of its upstream port's peer on a Branch (R295). -/
def State.forwarded (s : State) : Bool :=
  if s.role = 1 then (s.reg aCouMode).testBit 0
  else if s.role = 2 then fld (s.port s.tree.upstream).peer.toNat 8 8 == 1
  else false

/-- First entry and count of a VF's Segment Table grant. -/
def State.entryGrant (s : State) (v : Nat) : Nat × Nat := (fld (s.reg (aGrant v 4)) 0 16, fld (s.reg (aGrant v 4)) 16 16)

/-- First line and count of a VF's pattern-line grant. -/
def State.lineGrant (s : State) (v : Nat) : Nat × Nat :=
  (fld (s.reg64 (aGrant v 8)) 0 40, fld (s.reg64 (aGrant v 16)) 0 40)

/-- The run `[first, first + n)` lies within a grant. -/
def within (g : Nat × Nat) (first n : Nat) : Bool := decide (g.1 ≤ first) && decide (first + n ≤ g.1 + g.2)

/-- Some of `[first, first + n)` lies within a grant: an empty grant holds nothing. -/
def touches (g : Nat × Nat) (first n : Nat) : Bool :=
  g.2 != 0 && n != 0 && decide (first < g.1 + g.2) && decide (g.1 < first + n)

/-- A function holds a run of Segment Table entries: a VF those of its own range that lie in no other VF's (R235). -/
def State.holdsEntries (s : State) (fn first n : Nat) : Bool :=
  fn == 0 || (within (s.entryGrant fn) first n
    && (List.range 32).all (fun v => v + 1 == fn || !touches (s.entryGrant (v + 1)) first n))

/-- A function holds a run of pattern lines (R235). -/
def State.holdsLines (s : State) (fn first n : Nat) : Bool :=
  fn == 0 || (within (s.lineGrant fn) first n
    && (List.range 32).all (fun v => v + 1 == fn || !touches (s.lineGrant (v + 1)) first n))

/-- A function holds a site (R235). -/
def State.holdsSite (s : State) (fn site : Nat) : Bool := s.siteFn site == fn

/-- Whether the operands alone show that R237 forbids the operation to the function. The lines of a PATTERN_LOAD are tested as R74
states, those of a SEAL when its entries are read. -/
def State.opForeign (s : State) (fn : Nat) : Op → Bool
  | .seal first countM1 => !s.holdsEntries fn first (countM1 + 1)
  | .memCopy src dst lines => !(s.holdsLines fn src lines && s.holdsLines fn dst lines)
  | .run site .. => !s.holdsSite fn site
  | .stop site => !s.holdsSite fn site
  | .arm site .. => !s.holdsSite fn site
  | _ => false

/-- The device's role, or the ring set, forbids the operation (Table 11.8, Table 8.9, R186). -/
def State.opRole (s : State) (h : Hdr) : Op → Bool
  | .patternBroadcast .. => s.role != 1
  | .commit form true .. => s.role != 1 || h.rs != 0 || form != 2
  | _ => false

/-- The status a fetched envelope's checks give: 0 where it may be dispatched (R248, R433). -/
def State.envelopeStatus (s : State) (h : Hdr) (fn : Nat) (op : Op) : Nat :=
  if opBad h op then 3
  else if (31 < h.rs.val && opPfOnly op) || (fn != 0 && s.opForeign fn op) || s.opRole h op
      || (s.boot.stage != 5 && !opLimited op) then 4
  else 0

end Sys2Proof.Machine
end

