-- ==== Sys2Proof/Machine/Serve.lean ====
section
/-! DEFINITION. How an envelope becomes a task and reaches its engine: the fetch limits, the checks, flows and fences, the free
server of its class (R247, R248, R256 to R268). -/

namespace Sys2Proof.Machine

/-- The boot stage lets envelopes be fetched: from stage 2 on, never in FAILED, and before READY on ring sets 0 to 31 only
(R433). -/
def State.stageServes (s : State) (k : Nat) : Bool :=
  decide (2 ≤ s.boot.stage) && s.boot.stage != 15 && (s.boot.stage == 5 || decide (k < 32))

/-- Completions written and not yet consumed (R247). -/
def State.unconsumed (s : State) (k : Nat) : Nat := ((s.rs k).cplProd - (s.rs k).cplCons).toNat

/-- Slots that all ring sets of a VF hold (R268). -/
def State.fnTasks (s : State) (fn : Nat) : Nat := s.so.tasks.countP (fun t => t.fn == fn)

/-- How many envelopes a read of ring set k may take now: 0 where R247, R267, R268 or R433 forbids a read. -/
def State.fetchRoom (s : State) (k : Nat) : Nat :=
  if (s.rs k).st = .enabled ∧ s.stageServes k ∧ 16 ≤ s.freeSlots then
    let room := min (s.freeSlots - 8) (s.ringLen k 1 - (s.rsTasks k + s.unconsumed k))
    let room := if s.rsFn k = 0 then room else min room (fld (s.reg (aVfQuota (s.rsFn k))) 0 13 - s.fnTasks (s.rsFn k))
    min 8 room
  else 0

/-- The task of an envelope fetched now from its ring set. -/
def State.newTask (s : State) (h : Hdr) (op : Op) (st : TaskState) : Task :=
  { id := s.so.nextId, hdr := h, fn := s.rsFn h.rs.val, courier := false, op := op, st := st,
    readySeq := s.so.readySeq, released := false, due := 0, outcome := none, waitsFor := [], bad := false }

/-- The task takes a slot. -/
def State.addTask (s : State) (t : Task) : State :=
  ({ s with so := { s.so with tasks := s.so.tasks ++ [t], nextId := s.so.nextId + 1, readySeq := s.so.readySeq + 1 } }).pauseCheck

/-- Tasks of a class in service. -/
def State.inService (s : State) (cls : Nat) : Nat :=
  s.so.tasks.countP (fun t => t.st == .inService && opClass t.op == cls)

/-- A server of the class is free (Table 12.2). -/
def State.serverFree (s : State) (cls : Nat) : Bool :=
  match classServers cls with
  | none => true
  | some n => decide (s.inService cls < n)

/-- A READY task of the class goes before a newcomer of the priority (R259). -/
def State.readyAhead (s : State) (cls prio : Nat) : Bool :=
  s.so.tasks.any (fun u => u.st == .ready && opClass u.op == cls && decide (prio ≤ u.hdr.prio.val))

/-- The envelope can go straight to its engine: nothing holds it, a server is free and no READY task goes before it. -/
def State.goesAtOnce (s : State) (h : Hdr) (op : Op) : Bool :=
  !isBlocked s.so.tasks (s.newTask h op .inService) && s.serverFree (opClass op) && !s.readyAhead (opClass op) h.prio.val

/-- One envelope that a read has taken, with the engine that serves it: its checks, then its flow and fences, then its server
(Table 12.1). -/
def take (h : Hdr) (op : Op) (engine : Task → State → State) (s : State) : State :=
  let status := s.envelopeStatus h (s.rsFn h.rs.val) op
  if status ≠ 0 then
    let t := s.newTask h op .inService
    (s.addTask t).complete t status 0
  else if s.goesAtOnce h op then
    let t := s.newTask h op .inService
    engine t (s.addTask t)
  else if isBlocked s.so.tasks (s.newTask h op .waiting) then s.addTask (s.newTask h op .waiting)
  else s.addTask (s.newTask h op .ready)

/-- One envelope read by itself. Where no read may take it, it stays in its ring and nothing changes (R269). -/
def serve (h : Hdr) (op : Op) (engine : Task → State → State) (s : State) : State :=
  if s.fetchRoom h.rs.val = 0 then s else take h op engine s

/-! ### Tasks that arrive over Courier (R267) -/

/-- The task of a Courier frame: priority 7, flow 0. -/
def State.courierTask (s : State) (op : Op) (st : TaskState) : Task :=
  { s.newTask { rs := 0, prio := 7, quiet := true, irq := false, flow := 0, tag := 0 } op st with fn := 0, courier := true }

/-- A Courier frame's task takes a slot and goes to its engine, or waits for a server of its class. -/
def State.takeCourier (s : State) (op : Op) (engine : State → State) : State :=
  if s.serverFree (opClass op) && !s.readyAhead (opClass op) 7 then engine (s.addTask (s.courierTask op .inService))
  else s.addTask (s.courierTask op .ready)

/-! ### The CONTROL class that needs no engine (R258, R263, R264) -/

/-- NOP completes OK at dispatch. -/
def engineNop (t : Task) (s : State) : State := s.complete t 0 0

/-- DELAY enters the delay list, due TICKS x TICK_US later, in CLK_MGMT cycles (R264). -/
def engineDelay (ticks : Nat) (t : Task) (s : State) : State :=
  let due := s.now + ticks * fld (s.reg aDelayTick) 0 16 * tuPerUs
  s.modTask t.id (fun u => { u with due := ceilDiv due tuPerMgmt * tuPerMgmt })

/-- A FENCE that is dispatched completes OK at once (R263). -/
def engineFence (t : Task) (s : State) : State := s.complete t 0 0

def execNop (h : Hdr) (s : State) : Host.Outcome State Fault Refusal := .next (serve h .nop engineNop s)

def execDelay (h : Hdr) (ticks : Nat) (s : State) : Host.Outcome State Fault Refusal :=
  .next (serve h (.delay ticks) (engineDelay ticks) s)

def execFence (h : Hdr) (scope : Nat) (s : State) : Host.Outcome State Fault Refusal :=
  .next (serve h (.fence scope) engineFence s)

/-- A DELAY task in the delay list. -/
def inDelayList (t : Task) : Bool :=
  t.st == .inService && (match t.op with | .delay _ => true | _ => false)

/-- Of two delay-list entries, the one that completes first: the earlier due time; at one due time the higher priority, then
dispatch order (R264). -/
def delayFirst (a b : Task) : Task :=
  if b.due < a.due then b
  else if a.due < b.due then a
  else if a.hdr.prio < b.hdr.prio then b
  else if b.hdr.prio < a.hdr.prio then a
  else if b.readySeq < a.readySeq then b
  else a

/-- The delay-list entry that falls due first. -/
def State.nextDelay (s : State) : Option Task :=
  match s.so.tasks.filter inDelayList with
  | [] => none
  | t :: ts => some (ts.foldl delayFirst t)

/-- DELAY_DUE: the first entry of the delay list reaches its due time and completes OK (R264). -/
def execDelayDue (s : State) : Host.Outcome State Fault Refusal :=
  match s.nextDelay with
  | some t => .next ((s.advance t.due).complete t 0 0)
  | none => .next s

end Sys2Proof.Machine
end

