-- ==== Sys2Proof/Machine/View.lean ====
section
/-! DEFINITION. A configuration as data and the fields of its items: segments, formats, modes, timing (chapters 2 to 9). A
configuration is the committed table, or the committed table with a draft laid over it (R176). -/

namespace Sys2Proof.Machine

/-- An item of a configuration. -/
def itemOf (cv : Tab Nat) (kind idx : Nat) : Nat := tget (itemReset kind idx) cv (itemKey kind idx)

/-- A configuration with items laid over it, given by key. -/
def overlay (cv : Tab Nat) (items : List (Nat × Nat)) : Tab Nat :=
  items.foldl (fun cv kv => setItem cv (kv.1 / 65536) (kv.1 % 65536) kv.2) cv

/-! ### Segment Table entries (Table 4.1) -/

def segLine (e : Nat) : Nat := fld e 0 40
def segRepeat (e : Nat) : Nat := fld e 40 24
def segLength (e : Nat) : Nat := fld e 64 32
def segNext (e : Nat) : Nat := fld e 96 16
def segTarget (e : Nat) : Nat := fld e 112 16
def segCond (e : Nat) : Nat := fld e 128 8
def segSource (e : Nat) : Nat := fld e 128 5
def segFalling (e : Nat) : Bool := e.testBit 133
def segPset (e : Nat) : Nat := fld e 136 6
def segBank (e : Nat) : Nat := fld e 142 2
def segTrig (e : Nat) : Nat := fld e 144 16
def segEnd (e : Nat) : Bool := e.testBit 160
def segCall (e : Nat) : Bool := e.testBit 161
def segReturn (e : Nat) : Bool := e.testBit 162
def segResident (e : Nat) : Bool := e.testBit 163
def segCapture (e : Nat) : Bool := e.testBit 164
def segMatch (e : Nat) : Bool := e.testBit 165
def segCheck (e : Nat) : Bool := e.testBit 166
def segScan (e : Nat) : Bool := e.testBit 167
def segEvery (e : Nat) : Bool := e.testBit 168
def segFrank (e : Nat) : Nat := fld e 176 32

/-- The segment is jump-enabled. -/
def segJumps (e : Nat) : Bool := segCond e != 0

def cvSeg (cv : Tab Nat) (i : Nat) : Nat := itemOf cv 7 i

/-! ### Sites, positions and modes -/

def cvMembers (cv : Tab Nat) (k : Nat) : Nat := fld (itemOf cv 4 k) 0 128
def cvResponse (cv : Tab Nat) (k : Nat) : Nat := fld (itemOf cv 4 k) 128 64
def cvTracking (cv : Tab Nat) (k : Nat) : Nat := fld (itemOf cv 4 k) 192 64
def cvStartDelay (cv : Tab Nat) (k : Nat) : Nat := fld (itemOf cv 4 k) 256 40
def cvChans (cv : Tab Nat) (k : Nat) : List Nat := bitsOf 128 (cvMembers cv k)
def cvSiteOf (cv : Tab Nat) (c : Nat) : Option Nat := (List.range 32).find? (fun k => (cvMembers cv k).testBit c)
def cvVformat (cv : Tab Nat) (k : Nat) : Nat := itemOf cv 5 k
def cvBgroup (cv : Tab Nat) (k : Nat) : Nat := if fld (cvVformat cv k) 4 4 ≤ 8 then fld (cvVformat cv k) 4 4 else 0
def cvCompact (cv : Tab Nat) (k : Nat) : Bool := (cvVformat cv k).testBit 3
def cvSiteMode (cv : Tab Nat) (k : Nat) : Nat := fld (itemOf cv 6 k) 0 32
def cvChanMode (cv : Tab Nat) (c : Nat) : Nat := fld (itemOf cv 6 (32 + c)) 0 16

/-- Mode bits of Table 7.1. -/
def mSV : Nat := 0
def mAO : Nat := 1
def mSB : Nat := 2
def mSG : Nat := 3
def mFC : Nat := 4
def mCC : Nat := 5
def mEP : Nat := 6
def mST : Nat := 7
def mML : Nat := 8
def mCS : Nat := 9
def mBC : Nat := 10
def mES : Nat := 11

/-- A site-scope mode is on (R153). -/
def siteOn (cv : Tab Nat) (k m : Nat) : Bool := (cvSiteMode cv k).testBit m

/-- A channel-scope mode is on for channel c of site k (R153). -/
def chanOn (cv : Tab Nat) (k c m : Nat) : Bool := (cvSiteMode cv k).testBit m && (cvChanMode cv c).testBit m

def matchGroupOf (cv : Tab Nat) (k : Nat) : Nat := fld (cvSiteMode cv k) 16 8

/-- Site position width W (R54). -/
def widthOf (n : Nat) : Nat := if n ≤ 4 then 4 else if n ≤ 8 then 8 else if n ≤ 16 then 16 else if n ≤ 32 then 32 else if n ≤ 64 then 64 else 128

def cvWidth (cv : Tab Nat) (k : Nat) : Nat := widthOf (cvChans cv k).length

/-- The WIDTH field that a width takes (Table 3.1). -/
def widthCode (w : Nat) : Nat := Nat.log2 w - 2

/-- A burst-scan site: an SG channel is in SB (R63). -/
def burstScan (cv : Tab Nat) (k : Nat) : Bool := (cvChans cv k).any (fun c => chanOn cv k c mSG && chanOn cv k c mSB)

/-- Bits per position of a segment's lines (R58). -/
def bitsPer (cv : Tab Nat) (k e : Nat) : Nat :=
  if segScan e then (if burstScan cv k then 4 else 1) else if cvCompact cv k then 2 else 4

/-- Vectors per line V (R58). -/
def perLine (cv : Tab Nat) (k e : Nat) : Nat := 512 / (cvWidth cv k * bitsPer cv k e)

/-- Lines of one pass of a segment (R60). -/
def segLines (cv : Tab Nat) (k e : Nat) : Nat := ceilDiv (segLength e) (perLine cv k e)

/-- Pigeonholes a resident segment takes (R94). -/
def segHoles (cv : Tab Nat) (k e : Nat) : Nat := ceilDiv (segLines cv k e * 64) 65536

/-- PERIOD of the period set a segment names, for a site. -/
def cvPeriod (cv : Tab Nat) (k e : Nat) : Nat := fld (itemOf cv 3 (64 * k + segPset e)) 0 40

/-- Lead member of a site's broadcast group: the lowest-numbered member; the site itself outside any group (R66). -/
def leadOf (cv : Tab Nat) (k : Nat) : Nat :=
  if cvBgroup cv k = 0 then k
  else ((List.range 32).find? (fun j => cvBgroup cv j == cvBgroup cv k)).getD k

/-- The members of a site's broadcast group, or the site alone. -/
def groupOf (cv : Tab Nat) (k : Nat) : List Nat :=
  if cvBgroup cv k = 0 then [k] else (List.range 32).filter (fun j => cvBgroup cv j == cvBgroup cv k)

/-- The site is, or leads, a fetch stream (R75). -/
def isStream (cv : Tab Nat) (k : Nat) : Bool := if cvBgroup cv k = 0 then siteOn cv k mSV else leadOf cv k == k

/-- The site takes its lines from a fetch stream. -/
def fetches (cv : Tab Nat) (k : Nat) : Bool := cvBgroup cv k != 0 || siteOn cv k mSV

/-- The start entries of a site: those of its lead member (R175). -/
def startList (cv : Tab Nat) (k : Nat) : List Nat :=
  ((List.range 8).map (fun i => fld (itemOf cv 4 (leadOf cv k)) (320 + 16 * i) 16)).filter (· != 0xFFFF)

/-! ### Waveforms and timing -/

/-- Waveform entry e of a bank of a channel (Table 2.4). -/
def cvEntry (cv : Tab Nat) (c bank e : Nat) : Nat := fld (itemOf cv 2 (4 * c + bank)) (32 * e) 32

def weDrive (w : Nat) : Nat := fld w 0 3
def weCompare (w : Nat) : Nat := fld w 3 3
def weTset (w : Nat) : Nat := fld w 6 6
/-- EDGE_EN of edge i: D0 to D3 are 0 to 3, C0 and C1 are 4 and 5. -/
def weEn (w i : Nat) : Bool := w.testBit (12 + i)
def weAlg (w : Nat) : Bool := w.testBit 18

/-- A timing set of a channel (Table 2.2). -/
def cvTset (cv : Tab Nat) (c t : Nat) : Nat := itemOf cv 1 (64 * c + t)
/-- Offset of edge i of a timing set. -/
def tsEdge (t i : Nat) : Nat := fld t (32 * i) 32
def tsFormat (t : Nat) : Nat := fld t 192 3
def tsWindow (t : Nat) : Bool := t.testBit 195

/-- A deskew word's signed value (Table 2.8). -/
def deskew (w : Nat) : Int := if w.testBit 18 then -(fld w 0 18 : Int) else (fld w 0 18 : Int)

def cvKD (cv : Tab Nat) (c : Nat) : Int := deskew (fld (itemOf cv 9 c) 0 32)
def cvKC (cv : Tab Nat) (c : Nat) : Int := deskew (fld (itemOf cv 9 c) 32 32)
/-- Offset-sampler word O (R38). -/
def cvOffset (cv : Tab Nat) (c : Nat) : Int := sfld (itemOf cv 9 c) 64 32
/-- Serial-burst compare word (Table 5.8). -/
def cvSbWord (cv : Tab Nat) (c : Nat) : Nat := fld (itemOf cv 9 c) 96 32
/-- Postmark CONTROL, WIN_OPEN and WIN_CLOSE (Table 6.2). -/
def cvPm (cv : Tab Nat) (c : Nat) : Nat := fld (itemOf cv 9 c) 128 32
/-- The whole postmark setting. -/
def cvPmWord (cv : Tab Nat) (c : Nat) : Nat := fld (itemOf cv 9 c) 128 128
def cvPmOpen (cv : Tab Nat) (c : Nat) : Nat := fld (itemOf cv 9 c) 192 32
def cvPmClose (cv : Tab Nat) (c : Nat) : Nat := fld (itemOf cv 9 c) 224 32
/-- Generator setting (Table 7.4). -/
def cvGen (cv : Tab Nat) (c : Nat) : Nat := fld (itemOf cv 9 c) 256 128

/-- A channel takes entry 0 whatever its position holds: SV off, SG in a scan segment, or SB where the code is data. In a scan segment
of one bit a position that is not SG holds a code, in SB too (R24, R62). -/
def entryZero (cv : Tab Nat) (k c e : Nat) : Bool :=
  !siteOn cv k mSV || (segScan e && chanOn cv k c mSG) || (chanOn cv k c mSB && !(segScan e && bitsPer cv k e == 1))

/-- The waveform entries a segment can select on a channel (R24, R62). -/
def reachEntries (cv : Tab Nat) (k c e : Nat) : List Nat :=
  if entryZero cv k c e then [0]
  else if bitsPer cv k e = 1 then [0, 1]
  else if bitsPer cv k e = 2 then [0, 1, 2, 3]
  else List.range 16

/-! ### Match groups as this device knows them (R83, R331) -/

/-- 2 M + 8 ns rounded up to whole nanoseconds, clamped at 400 ns (R331). -/
def matchLatency (m : Nat) : Nat := min 3200000 (ceilDiv (2 * m + 64000) 8000 * 8000)

/-- H and IN_SUBTREE of a group where the device holds a record: the Postmaster is the default combiner of every group. -/
def State.matchRec (s : State) (g : Nat) : Option (Nat × Bool) :=
  let x := s.mgroup g
  if x.known then some (x.h, x.inSubtree)
  else if s.role = 1 then some (matchLatency s.tree.lsys, true)
  else none

/-- The H a device uses for a group; 400 ns where it holds none (R83). -/
def State.matchH (s : State) (g : Nat) : Nat := match s.matchRec g with | some (h, _) => h | none => 3200000

/-- Decision distance D of a jump-enabled segment on a site (R83). -/
def decisionDist (h period source : Nat) : Nat := max 4 (ceilDiv (128000 + (if source = 20 then h else 0)) period)

def State.segD (s : State) (cv : Tab Nat) (k e : Nat) : Nat :=
  decisionDist (s.matchH (matchGroupOf cv k)) (cvPeriod cv k e) (segSource e)

end Sys2Proof.Machine
end

