-- ==== Sys2Proof/Machine/Check.lean ====
section
/-! DEFINITION. CHECK: reachability (R82, R175), the check codes C-01 to C-45 of Table 8.7, the fetch demand (R75) and the
record bound (R167). -/

namespace Sys2Proof.Machine

/-- A violation, as a check report entry gives it (Table 8.6). `site` 0xFF and `segment` 0xFFFF stand for none. -/
structure Viol where
  code : Nat
  kind : Nat
  site : Nat
  index : Nat
  segment : Nat
  detail : Nat
  deriving DecidableEq, Repr

/-- A violation of an item of a site in a segment. -/
def viol (code kind site index segment : Nat) : Viol := ⟨code, kind, site, index, segment, 0⟩

/-- A violation of an item with no segment. -/
def violItem (code kind site index : Nat) : Viol := ⟨code, kind, site, index, 0xFFFF, 0⟩

/-- One violation where a test holds. -/
def violIf (b : Bool) (v : Viol) : List Viol := if b then [v] else []

/-- First occurrences only. -/
def dedup {α : Type} [DecidableEq α] : List α → List α
  | [] => []
  | x :: xs => if x ∈ xs then dedup xs else x :: dedup xs

/-! ### The walk's states: an entry with its call stack (R81, R82) -/

/-- Continuations of a node by what no jump, and a jump, give; whether a ninth push or an empty pop occurs. An entry that sets
more than one of END, CALL and RETURN follows every continuation (R175). -/
def walkNext (e : Nat) (stack : List Nat) : List (Nat × List Nat) × Bool :=
  let jump := if segJumps e then [(segTarget e, stack)] else []
  let call := if segCall e then (if stack.length < 8 then ([(segTarget e, segNext e :: stack)], false) else ([], true))
    else ([], false)
  let ret := if segReturn e then (match stack with | [] => ([], true) | r :: rest => ([(r, rest)], false)) else ([], false)
  let next := if segEnd e || segCall e || segReturn e then [] else [(segNext e, stack)]
  (jump ++ call.1 ++ ret.1 ++ next, call.2 || ret.2)

/-- Fuel that no search of 65,536 entries with stacks of up to eight can spend (R82). -/
def walkFuel : Nat := 2 ^ 160

/-- Every node reached from those on the list, and the entries at which the stack breaks (C-26). -/
def walkAll (cv : Tab Nat) : Nat → List (Nat × List Nat) → List (Nat × List Nat) → List Nat → List (Nat × List Nat) × List Nat
  | 0, _, seen, bad => (seen, bad)
  | _ + 1, [], seen, bad => (seen, bad)
  | n + 1, x :: todo, seen, bad =>
    if x ∈ seen then walkAll cv n todo seen bad
    else
      let (next, b) := walkNext (cvSeg cv x.1) x.2
      walkAll cv n (next ++ todo) (x :: seen) (if b then x.1 :: bad else bad)

/-- The nodes a site's walk can reach, and the entries that break the stack. -/
def siteNodes (cv : Tab Nat) (k : Nat) : List (Nat × List Nat) × List Nat :=
  walkAll cv walkFuel ((startList cv k).map (fun e => (e, []))) [] []

/-- A site's reachable entries (R175). -/
def reachable (cv : Tab Nat) (k : Nat) : List Nat := dedup ((siteNodes cv k).1.map (·.1))

/-! ### Landing (R96) -/

/-- Fewest resident time of a segment on a landing path, in TU. -/
def residentTime (cv : Tab Nat) (k e : Nat) : Nat :=
  (if segJumps e then 1 else segRepeat e + 1) * segLength e * cvPeriod cv k e

/-- The resident times, below 16,000,000 TU, with which paths from the nodes on the list reach a streaming vector. -/
def landing (cv : Tab Nat) (k : Nat) : Nat → List ((Nat × List Nat) × Nat) → List ((Nat × List Nat) × Nat) → List Nat → List Nat
  | 0, _, _, out => out
  | _ + 1, [], _, out => out
  | n + 1, x :: todo, seen, out =>
    if x ∈ seen then landing cv k n todo seen out
    else
      let e := cvSeg cv x.1.1
      if !segResident e then landing cv k n todo (x :: seen) (x.2 :: out)
      else
        let t := x.2 + residentTime cv k e
        if 16000000 ≤ t then landing cv k n todo (x :: seen) out
        else landing cv k n ((walkNext e x.1.2).1.map (fun y => (y, t)) ++ todo) (x :: seen) out

/-- The shortest resident time by which a path from any of the nodes breaks the landing rule, if any does. -/
def landingBreak (cv : Tab Nat) (k : Nat) (nodes : List (Nat × List Nat)) : Option Nat :=
  (landing cv k walkFuel (nodes.map (fun x => (x, 0))) [] []).min?

/-! ### Demand, pigeonholes and the record bound -/

/-- Sum of two non-negative fractions. -/
def fracAdd (a b : Nat × Nat) : Nat × Nat := (a.1 * b.2 + b.1 * a.2, a.2 * b.2)

/-- The larger of two non-negative fractions. -/
def fracMax (a b : Nat × Nat) : Nat × Nat := if a.1 * b.2 < b.1 * a.2 then b else a

/-- Demand of a segment for a stream, in bytes per second, as a fraction (R75). -/
def segDemand (cv : Tab Nat) (k e : Nat) : Nat × Nat :=
  if segResident e || segLength e == 0 || cvPeriod cv k e == 0 then (0, 1)
  else (segLines cv k e * 64 * tuPerSec, segLength e * cvPeriod cv k e)

/-- Demand of a stream: the largest of its reachable segments. -/
def streamDemand (cv : Tab Nat) (k : Nat) : Nat × Nat :=
  (reachable cv k).foldl (fun m i => fracMax m (segDemand cv k (cvSeg cv i))) (0, 1)

/-- Fields of the device stream setup of a configuration (Table 9.1). -/
def cvSetup (cv : Tab Nat) : Nat := itemOf cv 11 0
def spillBase (cv : Tab Nat) : Nat := fld (cvSetup cv) 320 40
def spillBags (cv : Tab Nat) : Nat := fld (cvSetup cv) 384 32
def spillRate (cv : Tab Nat) : Nat := fld (cvSetup cv) 416 32

/-- Total fetch demand in bytes per second (R75). -/
def totalDemand (cv : Tab Nat) : Nat × Nat :=
  ((List.range 32).filter (isStream cv)).foldl (fun d k => fracAdd d (streamDemand cv k)) (spillRate cv * 1000000, 1)

/-- Total fetch demand in MB/s, rounded up. -/
def demandMB (cv : Tab Nat) : Nat := ceilDiv (totalDemand cv).1 ((totalDemand cv).2 * 1000000)

/-- A fetch budget of Table 3.6 in MB/s; zero where memory is not trained (R177). -/
def State.budgetMB (s : State) (doubled : Bool) : Nat :=
  if s.mem.state != 2 then 0
  else match s.mem.dpc2, doubled with
    | false, false => 200000
    | false, true => 184000
    | true, false => 160000
    | true, true => 147000

/-- The budget a BUDGET choice names: 0 conservative, 1 warm (R177). -/
def State.budgetOf (s : State) (choice : Nat) : Nat := s.budgetMB (choice == 0 || s.mem.doubled)

/-- Resident segments of the streams by line address and length, with their pigeonholes (R94). -/
def residents (cv : Tab Nat) : List (Nat × Nat × Nat) :=
  ((List.range 32).filter (isStream cv)).flatMap (fun k =>
    ((reachable cv k).filter (fun i => segResident (cvSeg cv i))).map (fun i =>
      (segLine (cvSeg cv i), segLength (cvSeg cv i), segHoles cv k (cvSeg cv i))))

/-- Pigeonholes the residents take together: one set for each line address and length. -/
def holesOf (rs : List (Nat × Nat × Nat)) : Nat :=
  ((dedup (rs.map (fun r => (r.1, r.2.1)))).map (fun key =>
    ((rs.filter (fun r => r.1 == key.1 && r.2.1 == key.2)).map (·.2.2)).foldl max 0)).sum

/-- Residents that the sites of a configuration which are not IDLE can reach (R95, R180). -/
def State.liveResidents (s : State) (cv : Tab Nat) : List (Nat × Nat × Nat) :=
  ((List.range 32).filter (fun k => isStream cv k && (groupOf cv k).any (fun j => (s.site j).st != .idle))).flatMap (fun k =>
    ((reachable cv k).filter (fun i => segResident (cvSeg cv i))).map (fun i =>
      (segLine (cvSeg cv i), segLength (cvSeg cv i), segHoles cv k (cvSeg cv i))))

/-- The pigeonholes held: those filled, and those ARM has allocated and not yet filled (R95). -/
def State.heldHoles (s : State) : List (Nat × Nat × Nat) :=
  s.mem.holes.map (fun h => (h.line, h.length, ceilDiv (h.lines.length * 64) 65536)) ++ s.liveResidents s.cfg.committed

/-- The sets of pigeonholes that a commit of a configuration fills: residents newly reachable by sites that are not IDLE (R180). -/
def State.newFills (s : State) (new : Tab Nat) : List (Nat × Nat × Nat) :=
  (s.liveResidents new).filter (fun r => !s.heldHoles.any (fun h => h.1 == r.1 && h.2.1 == r.2.1))

/-- Pigeonholes in C-28: what a configuration's residents need, or, if more, those held with those that the configuration and a
pending commit fill (R94, R180). -/
def State.holesNeeded (s : State) (cv : Tab Nat) : Nat :=
  let pending := match s.cfg.pending with | some p => p.fills | none => []
  max (holesOf (residents cv)) (holesOf (s.heldHoles ++ pending ++ s.newFills cv))

/-- Strobes a waveform entry enables, a window as one; none with COMPARE_OP none (Table 7.6). -/
def entryStrobes (cv : Tab Nat) (c w : Nat) : Nat :=
  if weCompare w = 0 then 0
  else if tsWindow (cvTset cv c (weTset w)) then b2n (weEn w 4 && weEn w 5)
  else b2n (weEn w 4) + b2n (weEn w 5)

/-- r of EP for a period (R167). -/
def epBound (cv : Tab Nat) (c p : Nat) : Nat :=
  let ctl := cvPm cv c
  let w := if ctl.testBit 6 then cvPmClose cv c - cvPmOpen cv c else p
  if !ctl.testBit 3 then 0
  else match fld ctl 4 2 with
    | 0 => ceilDiv w 1600
    | 1 => ceilDiv (ceilDiv w 1600) (fld ctl 8 16 + 1)
    | _ => 1

/-- r of a channel for a period: what FC, CC and EP draw together (Table 7.6). -/
def recordR (cv : Tab Nat) (k c p : Nat) (segs : List Nat) : Nat :=
  let fc := if chanOn cv k c mFC && (cvResponse cv k).testBit 3 && segs.any segCapture then 1 else 0
  let cc := if chanOn cv k c mCC then
      (if chanOn cv k c mSB then 4
       else (segs.flatMap (fun e => (reachEntries cv k c e).map (fun i => entryStrobes cv c (cvEntry cv c (segBank e) i)))).foldl max 0)
    else 0
  let ep := if chanOn cv k c mEP then epBound cv c p else 0
  fc + cc + ep

/-- The record bound B in records per second (R167). -/
def recordBound (cv : Tab Nat) : Nat × Nat :=
  (List.range 32).foldl (fun d k =>
    let segs := (reachable cv k).map (cvSeg cv)
    let ps := dedup (segs.map (cvPeriod cv k))
    (cvChans cv k).foldl (fun d c =>
      fracAdd d (ps.foldl (fun m p => if p = 0 then m else fracMax m (recordR cv k c p segs * tuPerSec, p)) (0, 1))) d) (0, 1)

/-- Host record limit for the link as trained, in 10^6 records per second (R231, Table 7.7). -/
def State.hostLimit (s : State) : Nat :=
  5600 * ((match s.hif.rate with | 1 => 16 | 2 => 32 | 3 => 64 | _ => 0) * s.hif.width) / 512

/-! ### The tests, code by code -/

/-- C-01 to C-07: the timing tests of Table 2.5 over one entry of a segment. In SB, D2 and C1 count as not enabled and STROBE as
0 (R30). -/
def timingTests (cv : Tab Nat) (k c i wi : Nat) : List Viol :=
  let e := cvSeg cv i
  let p := cvPeriod cv k e
  let sb := chanOn cv k c mSB
  let w := cvEntry cv c (segBank e) wi
  let bank := 4 * c + segBank e
  let ti := 64 * c + weTset w
  let t := cvTset cv c (weTset w)
  let en := fun j => weEn w j && !(sb && (j == 2 || j == 5))
  let f := tsFormat t
  let d := fun j => (tsEdge t j : Int)
  violIf ((List.range 6).any (fun j => en j && decide (4 * p ≤ tsEdge t j))) (viol 1 1 k ti i)
    ++ violIf (decide (5 < weDrive w) || decide (5 < weCompare w)) (viol 3 2 k bank i)
    ++ violIf (decide (4 < f)) (viol 3 1 k ti i)
    ++ violIf (!sb && (f == 1 || f == 2 || f == 3) && en 1 && en 2 && decide (d 2 - d 1 < 400)) (viol 4 1 k ti i)
    ++ violIf (!sb && tsWindow t && en 4 && en 5 && decide (d 5 - d 4 < 200)) (viol 5 1 k ti i)
    ++ violIf (!sb && tsWindow t && (en 4 != en 5)) (viol 6 1 k ti i)

/-- Tests of one reachable segment of one site on its channels and period (C-01 to C-08). -/
def segTiming (cv : Tab Nat) (k i : Nat) : List Viol :=
  let e := cvSeg cv i
  let p := cvPeriod cv k e
  violIf (decide (p < 2000)) (viol 2 3 k (64 * k + segPset e) i)
    ++ (cvChans cv k).flatMap (fun c =>
      (reachEntries cv k c e).flatMap (timingTests cv k c i)
        ++ violIf (chanOn cv k c mSB && p % 4 != 0) (viol 7 3 k (64 * k + segPset e) i)
        ++ violIf (decide ((p / (if chanOn cv k c mSB && chanOn cv k c mES then 8 else 2) : Nat) < (cvOffset cv c).natAbs))
            (viol 8 9 k c i))

/-- Tests of one reachable entry as control flow (C-18 to C-24, R78). -/
def segControl (s : State) (cv : Tab Nat) (k i : Nat) : List Viol :=
  let e := cvSeg cv i
  let src := segSource e
  let d := s.segD cv k e
  let rec' := s.matchRec (matchGroupOf cv k)
  violIf (segLength e == 0) (viol 18 7 k i i)
    ++ violIf (decide (1 < b2n (segEnd e) + b2n (segCall e) + b2n (segReturn e)) || (segCall e && segJumps e)) (viol 19 7 k i i)
    ++ violIf (segMatch e && (!siteOn cv k mML || (segJumps e && src != 19 && src != 20))) (viol 20 7 k i i)
    ++ violIf (src == 20 && (!siteOn cv k mCS || matchGroupOf cv k == 0 || !(match rec' with | some (_, b) => b | none => false)))
        (viol 21 7 k i i)
    ++ violIf (decide (20 < src) || fld e 134 2 != 0 || (segFalling e && !(decide (1 ≤ src) && decide (src ≤ 16))))
        (viol 22 7 k i i)
    ++ violIf (segJumps e && decide (segLength e ≤ d)) { viol 23 7 k i i with detail := d }
    ++ violIf (segJumps e && fetches cv k && !segResident (cvSeg cv (segTarget e))) (viol 24 7 k i i)

/-- C-25: the landing rule at every jump a site can take. -/
def landingTests (cv : Tab Nat) (k : Nat) (nodes : List (Nat × List Nat)) : List Viol :=
  if !fetches cv k then []
  else (nodes.filter (fun x => segJumps (cvSeg cv x.1))).flatMap (fun x =>
    let e := cvSeg cv x.1
    match landingBreak cv k [(segTarget e, x.2)] with
    | some t => [{ viol 25 7 k (segTarget e) x.1 with detail := t / 1000 }]
    | none => [])

/-- The active capacity in lines: zero where memory is not trained (R177). -/
def State.activeLines (s : State) : Nat := if s.mem.state = 2 then s.mem.capacity else 0

/-- C-27: a line of a segment that a fetch stream reaches lies beyond the capacity or inside the spill ring (R68). -/
def lineTests (s : State) (cv : Tab Nat) (k i : Nat) : List Viol :=
  let e := cvSeg cv i
  let a := segLine e
  let n := segLines cv k e
  violIf (fetches cv k && (s.activeLines == 0 || decide (s.activeLines < a + n)
    || (spillBags cv != 0 && decide (a < spillBase cv + spillBags cv * 64) && decide (spillBase cv < a + n)))) (viol 27 7 k i i)

/-- Broadcast-group tests (C-14 to C-17, R65). -/
def groupTests (cv : Tab Nat) (k : Nat) : List Viol :=
  if cvBgroup cv k = 0 then []
  else
    let ms := groupOf cv k
    let lead := leadOf cv k
    let rs := reachable cv k
    let pos := fun j m => (List.range (cvWidth cv j)).map (fun p => match (cvChans cv j)[p]? with
      | some c => chanOn cv j c m
      | none => false)
    violIf (ms.length == 1 || ms.any (fun j => fld (cvVformat cv j) 0 4 != fld (cvVformat cv lead) 0 4)) (violItem 14 5 k k)
      ++ rs.flatMap (fun i => violIf (cvPeriod cv k (cvSeg cv i) != cvPeriod cv lead (cvSeg cv i))
          (viol 15 3 k (64 * k + segPset (cvSeg cv i)) i))
      ++ violIf (pos k mSG != pos lead mSG || pos k mSB != pos lead mSB) (violItem 16 6 k k)
      ++ (if k = lead then rs.flatMap (fun i => violIf (segMatch (cvSeg cv i) || segSource (cvSeg cv i) == 18) (viol 17 7 k i i)) else [])

/-- Response and tracking words (C-30 to C-33). -/
def responseTests (cv : Tab Nat) (k : Nat) (rs : List Nat) : List Viol :=
  let r := cvResponse cv k
  let mode := fld r 0 2
  let depth := fld r 8 8
  let t := cvTracking cv k
  let ref := fld t 0 7
  violIf (depth == 0 && rs.any (fun i => segCapture (cvSeg cv i)) && (cvChans cv k).any (fun c => chanOn cv k c mFC)) (violItem 30 4 k k)
    ++ violIf (mode == 3 || (mode == 1 && fld r 16 32 == 0) || (mode == 2 && (depth == 0 || r.testBit 2))) (violItem 31 4 k k)
    ++ violIf (siteOn cv k mST && (!(cvMembers cv k).testBit ref || chanOn cv k ref mSB || chanOn cv k ref mSG
        || fld t 8 5 == 0 || decide (20 < fld t 8 5) || decide (fld t 16 13 < 8) || decide (8000 < fld t 16 13)
        || (startList cv k).any (fun i => decide (3 * cvPeriod cv k (cvSeg cv i) < 2 * (sfld t 32 32).natAbs)))) (violItem 32 4 k k)
    ++ (cvChans cv k).flatMap (fun c =>
        let w := cvSbWord cv c
        violIf (chanOn cv k c mSB && w.testBit 5 && (decide (fld w 6 13 < 16) || decide (4096 < fld w 6 13))) (violItem 33 9 k c))

/-- Degree of a generator's register (Table 7.5). -/
def genDegree (g : Nat) : Nat :=
  match fld g 0 3 with
  | 0 => 7
  | 1 => 9
  | 2 => 15
  | 3 => 23
  | 4 => 31
  | 6 => if fld g 64 32 = 0 then 0 else Nat.log2 (fld g 64 32) + 1
  | _ => 0

/-- Postmark and generator settings of a channel (C-34, C-39, C-40). -/
def channelTests (cv : Tab Nat) (k c : Nat) (rs : List Nat) : List Viol :=
  let ctl := cvPm cv c
  let o := cvPmOpen cv c
  let cl := cvPmClose cv c
  let g := cvGen cv c
  violIf (chanOn cv k c mEP && (fld ctl 0 2 == 3 || fld ctl 4 2 == 3
      || (ctl.testBit 6 && (decide (cl ≤ o) || rs.any (fun i => decide (cvPeriod cv k (cvSeg cv i) < cl - o)
            || decide (4 * cvPeriod cv k (cvSeg cv i) ≤ cl))))
      || (ctl.testBit 7 && !siteOn cv k mST))) (violItem 34 9 k c)
    ++ violIf (chanOn cv k c mAO && (fld g 0 3 == 7 || (fld g 0 3 != 5 && fld g 32 (genDegree g) == 0)
        || (fld g 0 3 == 6 && decide (genDegree g < 2)))) (violItem 39 9 k c)
    ++ violIf (siteOn cv k mST && chanOn cv k c mES && fld (cvTracking cv k) 0 7 == c) (violItem 40 6 k (32 + c))

/-- Membership, format and mode tests of a site (C-09, C-10, C-12, C-13, C-37, C-38). -/
def siteTests (s : State) (cv : Tab Nat) (k : Nat) (rs : List Nat) : List Viol :=
  let m := cvMembers cv k
  let vf := cvVformat cv k
  let cs := cvChans cv k
  let sgs := cs.filter (fun c => chanOn cv k c mSG)
  violIf ((List.range 32).any (fun j => j != k && (cvMembers cv j) &&& m != 0)) (violItem 9 4 k k)
    ++ violIf (decide (5 < fld vf 0 3) || decide (8 < fld vf 4 4) || fld vf 0 3 != widthCode (widthOf cs.length)) (violItem 10 5 k k)
    ++ violIf ((cvCompact cv k && cs.any (fun c => chanOn cv k c mSB))
        || (sgs.any (fun c => chanOn cv k c mSB) && sgs.any (fun c => !chanOn cv k c mSB))) (violItem 12 5 k k)
    ++ violIf (decide (cvStartDelay cv k < 320000) || decide (8000000000 < cvStartDelay cv k)
        || (m == 0 && fld (itemOf cv 4 k) 320 128 != 2 ^ 128 - 1)) (violItem 13 4 k k)
    ++ violIf (siteOn cv k mCS && (s.role == 0 || !s.forwarded)) (violItem 37 6 k k)
    ++ violIf (siteOn cv k mML && rs.any (fun i => segMatch (cvSeg cv i)) && !cs.any (fun c => chanOn cv k c mFC)) (violItem 38 6 k k)

/-- C-35: an enabled pair slot (R147). -/
def slotTests (cv : Tab Nat) (i : Nat) : List Viol :=
  let w := itemOf cv 11 (1 + i)
  let kind := fld w 0 2
  let a := fld w 8 7
  let b := if kind < 2 then fld w 16 7 else a
  let ep := fun c => match cvSiteOf cv c with
    | some k => chanOn cv k c mEP
    | none => false
  violIf (w.testBit 7 && (!ep a || !ep b || cvSiteOf cv a != cvSiteOf cv b
    || (kind == 0 && (fld (cvPm cv a) 4 2 == 1 || fld (cvPm cv b) 4 2 == 1)))) (violItem 35 11 ((cvSiteOf cv a).getD 0xFF) (1 + i))

/-- C-36: reserved mode bits, and BC (R154). -/
def modeTests (cv : Tab Nat) : List Viol :=
  let dev := itemOf cv 6 160
  (List.range 32).flatMap (fun k =>
      let w := cvSiteMode cv k
      violIf (fld w 12 4 != 0 || fld w 25 7 != 0 || w.testBit 10 != dev.testBit 10) (violItem 36 6 k k))
    ++ (List.range 128).flatMap (fun c =>
      let w := cvChanMode cv c
      violIf (w.testBit 0 || fld w 7 4 != 0 || fld w 12 4 != 0) (violItem 36 6 ((cvSiteOf cv c).getD 0xFF) (32 + c)))
    ++ violIf (fld dev 0 10 != 0 || fld dev 11 21 != 0) (violItem 36 6 0xFF 160)

/-- C-41: a PE script (Table 8.4). -/
def scriptTests (cv : Tab Nat) (i : Nat) : List Viol :=
  let v := itemOf cv 8 i
  let n := fld v 0 16
  violIf (decide (256 < n) || (n != 0 && (decide (fld v 24 8 < 4)
    || (List.range (min n 256)).any (fun j =>
        let bits := fld v (64 * (j + 1) + 32) 8
        bits == 0 || decide (32 < bits) || (v.testBit (64 * (j + 1) + 40) && i % 4 != 3))))) (violItem 41 8 0xFF i)

/-- C-42: a trigger route; `fn` is the function that stages it, none for a route as committed (R205). -/
def routeTests (s : State) (cv : Tab Nat) (fn : Option Nat) (i : Nat) : List Viol :=
  let v := itemOf cv 10 i
  let mode := fld v 0 3
  let arg := fld v 4 4
  let mask := fld v 32 32
  violIf (decide (4 < mode) || v.testBit 3 || fld v 16 16 != 0 || fld v 96 32 != 0 || (mode != 0 && fld v 8 8 == 0)
    || (mode == 1 && (mask == 0 || (match fn with | some f => (bitsOf 32 mask).any (fun k => !s.holdsSite f k) | none => false)))
    || (mode == 2 && decide (7 < arg))
    || (mode == 3 && (decide (fld v 64 32 < 160000) || (decide (8 ≤ i) && arg == i)))) (violItem 42 10 0xFF i)

/-- C-43: the device stream setup (R192). -/
def setupTests (s : State) (cv : Tab Nat) : List Viol :=
  let v := cvSetup cv
  let site := fun k => fld v (4 * k) 4
  let marks := fld v 128 32
  let csp := fld v 448 16
  let dev := [fld v 288 4, fld v 292 4, fld v 296 4, fld v 300 4]
  violIf (fld v 360 24 != 0 || fld v 464 48 != 0 || (List.range 16).any (fun i => fld v (160 + 2 * i) 2 == 3)
    || fld v 304 16 == 0 || decide (4194304 < spillBags cv) || decide (96000 < spillRate cv)
    || ((spillBags cv == 0) != (spillRate cv == 0)) || spillBase cv % 64 != 0
    || (spillBags cv != 0 && decide (s.activeLines < spillBase cv + spillBags cv * 64))
    || (List.range 32).any (fun k => (List.range k).any (fun j => site j == site k && marks.testBit j && marks.testBit k))
    || csp.testBit (fld v 296 4) || csp.testBit (fld v 300 4)
    || (List.range 16).any (fun t => (s.stream t).isOpen
        && ((List.range 32).any (fun k => site k == t && cvMembers cv k != 0 && !s.holdsSite (s.rsFn (s.stream t).rs) k)
          || (decide (31 < (s.stream t).rs) && dev.contains t)))) (violItem 43 11 0xFF 0)

/-- C-44: a staged ring resize (Table 8.1). -/
def resizeTests (kv : Nat × Nat) : List Viol :=
  let i := kv.1 % 65536
  violIf (kv.1 / 65536 == 12 && (decide (fld kv.2 0 8 < 6) || decide (16 < fld kv.2 0 8) || (i % 4 == 3 && i != 3))) (violItem 44 12 0xFF i)

/-- The sites an item governs, in the committed configuration or the candidate (Table 8.1). -/
def itemSites (old new : Tab Nat) (kind idx v : Nat) : List Nat :=
  let ofChan := fun c => ([cvSiteOf old c, cvSiteOf new c].filterMap id).dedup
  match kind with
  | 1 => ofChan (idx / 64)
  | 2 => ofChan (idx / 4)
  | 3 => [idx / 64]
  | 4 => [idx]
  | 5 => [idx]
  | 6 => if idx < 32 then [idx] else if idx < 160 then ofChan (idx - 32) else []
  | 9 => ofChan idx
  | 11 => if idx = 0 then [] else ofChan (fld v 8 7)
  | _ => []

/-- A ring set may write an item of its draft (R172). -/
def State.mayStage (s : State) (new : Tab Nat) (rs : Nat) (kv : Nat × Nat) : Bool :=
  let kind := kv.1 / 65536
  let idx := kv.1 % 65536
  let fn := s.rsFn rs
  if kind = 7 then decide (rs < 32) || (fn != 0 && s.holdsEntries fn idx 1)
  else if kind = 8 || kind = 10 || kind = 12 || (kind = 11 && idx = 0) || (kind = 6 && idx = 160) then decide (rs < 32)
  else (itemSites s.cfg.committed new kind idx kv.2).all (s.holdsSite fn)

/-- The draft of a ring set: item keys and values. -/
def State.draft (s : State) (rs : Nat) : List (Nat × Nat) := tget [] s.cfg.drafts rs

/-- The candidate set: the committed configuration with a draft laid over it (R176). Ring resizes are not part of it. -/
def State.candidate (s : State) (rs : Nat) : Tab Nat :=
  overlay s.cfg.committed ((s.draft rs).filter (fun kv => kv.1 / 65536 != 12))

/-- Every violation of the candidate set, C-01 to C-45, in code order (Table 8.7). -/
def State.violations (s : State) (rs choice : Nat) : List Viol :=
  let cv := s.candidate rs
  let draft := s.draft rs
  let perSite := (List.range 32).flatMap (fun k =>
    let (nodes, bad) := siteNodes cv k
    let r := dedup (nodes.map (·.1))
    r.flatMap (segTiming cv k) ++ r.flatMap (segControl s cv k) ++ landingTests cv k nodes
      ++ bad.map (fun i => viol 26 7 k i i) ++ r.flatMap (lineTests s cv k) ++ groupTests cv k ++ responseTests cv k r
      ++ (cvChans cv k).flatMap (fun c => channelTests cv k c r) ++ siteTests s cv k r)
  let units := ((List.range 32).map (fun k => fld (cvResponse cv k) 8 8)).sum
  let holes := s.holesNeeded cv
  let staged := fun i => if draft.any (fun kv => kv.1 == itemKey 10 i) then some (s.rsFn rs) else none
  let all := perSite ++ violIf (decide (768 < holes)) { violItem 28 0 0xFF 0 with detail := holes }
    ++ violIf (decide (s.budgetOf choice * 1000000 * (totalDemand cv).2 < (totalDemand cv).1))
        { violItem 29 0 0xFF 0 with detail := demandMB cv }
    ++ violIf (decide (256 < units)) { violItem 30 0 0xFF 0 with detail := units }
    ++ (List.range 64).flatMap (slotTests cv) ++ modeTests cv ++ (List.range 64).flatMap (scriptTests cv)
    ++ (List.range 16).flatMap (fun i => routeTests s cv (staged i) i) ++ setupTests s cv ++ draft.flatMap resizeTests
    ++ draft.flatMap (fun kv => violIf (!s.mayStage cv rs kv)
        (violItem 45 (kv.1 / 65536) ((itemSites s.cfg.committed cv (kv.1 / 65536) (kv.1 % 65536) kv.2).headD 0xFF) (kv.1 % 65536)))
  (List.range 49).flatMap (fun c => (dedup all).filter (fun v => v.code == c))

/-- A check report entry as 16 bytes (Table 8.6). -/
def violBytes (v : Viol) : Nat :=
  v.code + 2 ^ 8 * v.kind + 2 ^ 16 * v.site + 2 ^ 32 * v.index + 2 ^ 64 * v.segment + 2 ^ 96 * (v.detail % 2 ^ 32)

/-- The CHECK result (Table 8.5); `room` is the report buffer's length in entries, none where no buffer is named. -/
def State.checkResult (s : State) (rs choice : Nat) (room : Option Nat) : Nat :=
  let vs := s.violations rs choice
  let cv := s.candidate rs
  let b := recordBound cv
  let warn := decide (6000000000 * b.2 < b.1) || decide (s.hostLimit * 1000000 * b.2 < b.1)
  let flags := b2n warn + 2 * b2n (choice == 1) + 4 * b2n s.mem.doubled
    + 8 * b2n (match room with | some n => decide (n < vs.length) | none => false)
  min vs.length 0xFFFF + 2 ^ 16 * (match vs with | v :: _ => v.code | [] => 0) + 2 ^ 24 * flags + 2 ^ 32 * (demandMB cv % 2 ^ 32)
    + 2 ^ 64 * s.budgetOf choice + 2 ^ 96 * (ceilDiv b.1 (b.2 * 1000000) % 2 ^ 32)

end Sys2Proof.Machine
end

