-- ==== Sys2Proof/Machine/Postmark.lean ====
section
/-! DEFINITION. Edge postmarks and interval measurement: DUT crossings, stamps, windows, decimation, POSTMARK records, the pair
slots and their summaries, site EPOCH pairs (chapter 6). -/

namespace Sys2Proof.Machine

/-! ### The interval unit (R147 to R151) -/

/-- Channel A of a pair word; channel B for KIND 0 and 1 (Table 6.5). -/
def pairA (w : Nat) : Nat := fld w 8 7
def pairB (w : Nat) : Nat := if fld w 0 2 < 2 then fld w 16 7 else pairA w
def pairKind (w : Nat) : Nat := fld w 0 2
def pairOn (w : Nat) : Bool := w.testBit 7
def pairLimit (w : Nat) : Nat := if fld w 32 32 = 0 then 4294967295 else fld w 32 32
def pairReport (w : Nat) : Nat := fld w 64 32

/-- The pair word of slot i. -/
def State.pairWord (s : State) (i : Nat) : Nat := s.item 11 (1 + i)

/-- An accepted value enters the accumulators (R149). -/
def slotAdd (x : Slot) (d : Int) : Slot :=
  let sq := x.sumsq + d.natAbs * d.natAbs
  let full := decide (2 ^ 32 ≤ x.count + 1) || decide (2 ^ 64 ≤ sq)
  { x with
    count := satAdd 32 x.count 1
    sum := toSigned 64 (ofSigned 64 (x.sum + d))
    sumsq := min sq (2 ^ 64 - 1)
    min := if x.count = 0 then d else Min.min x.min d
    max := if x.count = 0 then d else Max.max x.max d
    saturated := x.saturated || full }

/-- One MISS (Table 6.6). -/
def slotMiss (x : Slot) : Slot := { x with miss := satAdd 32 x.miss 1 }

/-- KIND 0: the vector under way ends; it misses where exactly one of A and B has a stamp. -/
def slotEndVector (x : Slot) : Slot :=
  let x := if x.vecA.isSome != x.vecB.isSome then slotMiss x else x
  { x with ord := none, vecA := none, vecB := none }

/-- One qualifying stamp, in stamp order, by the slot's KIND (R148). -/
def slotStamp (w : Nat) (x : Slot) (p : SlotStamp) : Slot :=
  match pairKind w with
  | 0 =>
    match p.ord with
    | none => x
    | some o =>
      let x := if x.ord = some o then x else { slotEndVector x with ord := some o }
      let had := x.vecA.isSome && x.vecB.isSome
      let x := { x with
        vecA := if p.isA && x.vecA.isNone then some p.t else x.vecA
        vecB := if p.isB && x.vecB.isNone then some p.t else x.vecB }
      match x.vecA, x.vecB with
      | some a, some b => if had then x else slotAdd x (b - a)
      | _, _ => x
  | 1 =>
    let x := if p.isA then { (if x.openA.isSome then slotMiss x else x) with openA := some p } else x
    match p.isB, x.openA with
    | true, some a =>
      let d := p.t - a.t
      let x := { x with openA := none }
      if d ≤ (pairLimit w : Int) then slotAdd x d else slotMiss x
    | _, _ => x
  | 2 =>
    let y := match x.last with
      | some l => if p.t - l ≤ (pairLimit w : Int) then slotAdd x (p.t - l) else slotMiss x
      | none => x
    { y with last := some p.t }
  | _ =>
    { x with count := if x.first.isSome then satAdd 32 x.count 1 else x.count
             saturated := x.saturated || (x.first.isSome && decide (2 ^ 32 ≤ x.count + 1))
             first := some (x.first.getD p.t), last := some p.t }

/-- A stamp with its WARMUP and CAL tags: every qualifying stamp a slot takes counts as contributing to the period it is taken in
(R146, Table 6.7; notes/assumptions/66.md). -/
def slotTagged (w : Nat) (x : Slot) (p : SlotStamp) : Slot :=
  { slotStamp w x p with
    warmup := x.warmup || p.low, cal := x.cal || p.cal, from_ := some (min p.root (x.from_.getD p.root)), upTo := some (max p.root (x.upTo.getD p.root)) }

/-- WARMUP of a period: TB_WARM was low at a contributing stamp, or fell after the first and by the last (R146). -/
def slotWarm (falls : List Nat) (x : Slot) : Bool :=
  x.warmup || (match x.from_, x.upTo with
    | some a, some b => falls.any (fun f => decide (a < f) && decide (f ≤ b))
    | _, _ => false)

/-- The order in which a slot takes its stamps: by time, a start before a stop at the same time; KIND 0 vector by vector. -/
def stampBefore (kind : Nat) (p u : SlotStamp) : Bool :=
  if kind = 0 ∧ p.ord ≠ u.ord then (match p.ord, u.ord with | some a, some b => decide (a < b) | _, _ => false)
  else decide (p.t < u.t) || (p.t == u.t && p.isA && !u.isA)

/-- Insert a stamp among those that wait. -/
def insertStamp (kind : Nat) (p : SlotStamp) : List SlotStamp → List SlotStamp
  | [] => [p]
  | u :: us => if stampBefore kind p u then p :: u :: us else u :: insertStamp kind p us

/-- FREQ in mHz: COUNT x 8 x 10^15 / SUM to the nearest, halves to even (R149). -/
def freqOf (count : Nat) (sum : Int) : Nat :=
  if count = 0 ∨ sum ≤ 0 then 0
  else
    let n := count * 8000000000000000
    let d := sum.toNat
    let q := n / d
    let r := 2 * (n % d)
    if d < r ∨ (r = d ∧ q % 2 = 1) then q + 1 else q

/-- A summary as 64 bytes (Table 6.7). -/
def slotSummary (w : Nat) (falls : List Nat) (x : Slot) (latch : Nat) (final : Bool) : Nat :=
  let k3 := pairKind w == 3
  let sum : Int := if k3 then (match x.first, x.last with | some a, some b => b - a | _, _ => 0) else x.sum
  let plain := !k3 && x.count != 0
  x.count + 2 ^ 32 * x.miss + 2 ^ 64 * ofSigned 64 sum + 2 ^ 128 * (if k3 then 0 else x.sumsq)
    + 2 ^ 192 * (if plain then ofSigned 64 x.min else 0) + 2 ^ 256 * (if plain then ofSigned 64 x.max else 0)
    + 2 ^ 320 * (if k3 then freqOf x.count sum % 2 ^ 64 else 0)
    + 2 ^ 384 * (latch % 2 ^ 52 + 2 ^ 56 * b2n (slotWarm falls x) + 2 ^ 57 * b2n x.saturated + 2 ^ 58 * b2n final + 2 ^ 59 * b2n x.cal)

/-- The accumulators cleared after a latch; a start still open waits for its stop in the later period, to which it contributes
(R148, R149). -/
def slotClear (x : Slot) : Slot :=
  let o := x.openA
  { x with count := 0, miss := 0, sum := 0, sumsq := 0, min := 0, max := 0, saturated := false
           warmup := (o.map (·.low)).getD false, from_ := o.map (·.root), upTo := o.map (·.root), cal := (o.map (·.cal)).getD false
           first := none, last := none, ord := none, vecA := none, vecB := none }

/-- Slots as they stand at a run epoch (R149). -/
def slotEpoch (x : Slot) (report : Nat) : Slot :=
  { Slot.reset with latched := x.latched, nextLatch := report }

/-- The site of a slot's channel A. -/
def State.slotSite (s : State) (i : Nat) : Option Nat := s.siteOf (pairA (s.pairWord i))

/-- A group is CAL_OVERDUE (R368, R370). -/
def isOverdue (x : Group) : Bool := x.overdue || x.missed != 0

/-- A channel's group is CAL_OVERDUE or STALE. -/
def State.calBad (s : State) (c : Nat) : Bool := isOverdue (s.group (c / 8)) || (s.group (c / 8)).isStale

/-- The stamps of a slot that need not wait, taken in stamp order. -/
def slotDrain (w : Nat) (keep : SlotStamp → Bool) (x : Slot) : Slot :=
  let now := x.q.filter (fun p => !keep p)
  now.foldl (slotTagged w) { x with q := x.q.filter keep }

/-- Put a latched summary into the device's summary queue, bound for SUMMARY_STREAM (R151, Table 9.6). -/
def State.pushSummary (s : State) (i : Nat) (summary : Nat) : State :=
  let e := i + 2 ^ 8 * ((s.slotSite i).getD 0) + 2 ^ 16 * pairKind (s.pairWord i) + 2 ^ 64 * summary
  { s with acq := { s.acq with summaryQ := s.acq.summaryQ ++ [BitVec.ofNat 576 e] } }

/-- Latch a slot (R150): `ends` tells the stamps that belong to the period, `latch` names the next period. -/
def State.latchSlot (s : State) (i : Nat) (keep : SlotStamp → Bool) (latch : Nat) (final : Bool) : State :=
  let w := s.pairWord i
  let x := slotDrain w keep (s.slot i)
  let x := if pairKind w = 0 then slotEndVector x else x
  let x := if final && pairKind w = 1 && x.openA.isSome then { slotMiss x with openA := none } else x
  let x := if pairKind w = 3 && x.count = 0 then slotMiss x else x
  let v := slotSummary w s.ptu.falls x latch final
  let y := { slotClear x with latched := BitVec.ofNat 512 v, closed := final }
  (s.setSlot i y).pushSummary i v

/-- The enabled slots of a site, ascending. -/
def State.siteSlots (s : State) (k : Nat) : List Nat :=
  (List.range 64).filter (fun i => pairOn (s.pairWord i) && s.slotSite i == some k)

/-- A stamp belongs to a period after the slot's next latch (R150). A stamp of no vector belongs to the run's last period. -/
def afterLatch (report latch total : Nat) (ended : Bool) (p : SlotStamp) : Bool :=
  report != 0 && (match p.ord with | some o => decide (latch ≤ o) | none => ended && decide (latch ≤ total))

/-- The latch at the boundary that ends the slot's present REPORT period (R150). -/
def State.latchReport (s : State) (k i : Nat) : State :=
  let x := s.site k
  let r := pairReport (s.pairWord i)
  let b := (s.slot i).nextLatch
  let vec := match x.recent.find? (fun m => m.ord == b) with | some m => m.vec | none => x.vec
  let s := s.latchSlot i (afterLatch r b x.ord x.tClose.isSome) vec false
  s.setSlot i { s.slot i with nextLatch := b + r }

/-- Latches of REPORT periods that have ended and not been taken. -/
def State.reportsDue (s : State) (k i : Nat) : Nat :=
  let r := pairReport (s.pairWord i)
  let b := (s.slot i).nextLatch
  if r = 0 ∨ (s.site k).ord < b then 0 else ((s.site k).ord - b) / r + 1

/-- The last latch of every slot of a site, at t_close or IDLE, after those of the REPORT periods that have ended (R150). -/
def State.closeSlots (s : State) (k : Nat) : State :=
  (s.siteSlots k).foldl (fun s i =>
    if (s.slot i).closed then s
    else ((List.range (s.reportsDue k i)).foldl (fun s _ => s.latchReport k i) s).latchSlot i (fun _ => false) (s.site k).vec true) s

/-! ### Stamps (R132 to R143) -/

/-- The postmark setting and EP that apply to a vector of a channel's site, or to a stamp, that starts at `t` (R141). -/
def State.pmAt (s : State) (k c : Nat) (t : Int) : Nat × Bool :=
  match (s.chan c).pmHist.find? (fun h => decide (h.1 ≤ t)) with
  | some h => h.2
  | none => (cvPmWord s.cfg.committed c, chanOn s.cfg.committed k c mEP)

/-- The window of a vector or hold slot under a setting (R139). -/
def pmWindow (set : Nat) (m : VecMark) : Int × Int :=
  let t : Int := if set.testBit 7 then m.tau else 0
  ((m.start : Int) + fld set 64 32 + t, (m.start : Int) + fld set 96 32 + t)

/-- The windows of marks taken oldest first, each beginning no earlier than the one before has closed (R139). -/
def pmWindows (at_ : Int → Nat × Bool) : Option Int → List VecMark → List (Nat × Int × Int)
  | _, [] => []
  | prev, m :: ms =>
    let (set, on) := at_ m.start
    if !(on && set.testBit 6) then pmWindows at_ prev ms
    else
      let (o, cl) := pmWindow set m
      let o := match prev with | some p => max o p | none => o
      (m.ord, o, cl) :: pmWindows at_ (some (match prev with | some p => max cl p | none => cl)) ms

/-- The ordinal of the vector or hold slot a stamp belongs to; none where it lies in none (R139). A stamp that lies both in a window
of an earlier vector and, under a later setting without windows, in the period of a vector belongs to the window's vector (DESIGN
CHOICE, notes/assumptions/67.md). -/
def State.pmVector (s : State) (k c : Nat) (t : Int) : Option Nat :=
  let x := s.site k
  let at_ := s.pmAt k c
  let windows := if (s.chan c).pmHist.isEmpty && !(at_ t).1.testBit 6 then [] else pmWindows at_ none x.recent.reverse
  match windows.find? (fun w => decide (w.2.1 ≤ t) && decide (t < w.2.2)) with
  | some w => some w.1
  | none =>
    if (at_ t).1.testBit 6 then none
    else (x.recent.find? (fun m => decide ((m.start : Int) ≤ t) && decide (t < m.start + m.period))).map (·.ord)

/-- The time before which every stamp of a channel has been seen and placed. -/
def State.stampBound (s : State) (k c : Nat) : Int :=
  let b := (s.now : Int) - (s.site k).epoch - cvKC s.cfg.committed c
  match (s.chan c).pmWait with | p :: _ => min b p.t | [] => b

/-- The time before which the stamps of a vector of a channel fall. -/
def State.vectorEnd (s : State) (k c : Nat) (m : VecMark) : Int :=
  let set := (s.pmAt k c m.start).1
  if set.testBit 6 then (pmWindow set m).2 else m.start + m.period

/-- Stamps that a slot may not take yet: those of a period whose predecessor has not been latched, and those before which an earlier
one, or for KIND 0 another one of the vector, may still come (R148, R150). -/
def State.slotKeep (s : State) (k i : Nat) (p : SlotStamp) : Bool :=
  let w := s.pairWord i
  let x := s.site k
  afterLatch (pairReport w) (s.slot i).nextLatch x.ord x.tClose.isSome p
    || (match pairKind w with
      | 0 =>
        (match x.recent.find? (fun m => some m.ord == p.ord) with
        | some m => [pairA w, pairB w].any (fun c => decide (s.stampBound k c < s.vectorEnd k c m))
        | none => false)
      | 1 => [pairA w, pairB w].any (fun c => decide (s.stampBound k c ≤ p.t))
      | _ => false)

/-- A slot with the stamps taken that it may take. -/
def State.slotTaken (s : State) (k i : Nat) (y : Slot) : Slot :=
  slotDrain (s.pairWord i) (s.slotKeep k i) y

/-- The live summary of a slot, taken without latching (R151). -/
def State.liveSummary (s : State) (k i : Nat) (latch : Nat) : Nat :=
  slotSummary (s.pairWord i) s.ptu.falls (s.slotTaken k i (s.slot i)) latch false

/-- A qualifying stamp reaches the slots that name its channel (R148). -/
def State.feedSlots (s : State) (k c : Nat) (p : PmStamp) (ord : Option Nat) : State :=
  (s.siteSlots k).foldl (fun s i =>
    let w := s.pairWord i
    let isA := pairA w == c
    let isB := pairB w == c
    if !(isA || isB) || (s.slot i).closed then s
    else
      let y := s.slot i
      s.setSlot i (s.slotTaken k i { y with q := insertStamp (pairKind w) ⟨p.t, ord, isA, isB, p.root, p.low, p.cal⟩ y.q })) s

/-- The two EPOCH records of a PTU time (R197, Table 9.9). -/
def epochPair (device : Bool) (site tu : Nat) : List (BitVec 64) :=
  let top := 6 * 2 ^ 61 + 2 ^ 59 * b2n device + 2 ^ 54 * site
  [BitVec.ofNat 64 (top + tu / tuPerSec % 2 ^ 48), BitVec.ofNat 64 (top + 2 ^ 60 + tu % tuPerSec)]

/-- A site's EPOCH pair k, for S = k x 2^50 TU after its epoch, enters its mark queue. -/
def State.siteEpochPair (s : State) (k n : Nat) : State :=
  let x := s.site k
  s.setSite k { x with marks := x.marks ++ epochPair false k (ptuTuAt s.ptu (x.epoch + n * 2 ^ 50)), epochPairs := n + 1 }

/-- A setting selects a crossing: the watched comparator, and the sense (R132). -/
def pmSelects (ctl : Nat) (p : PmStamp) : Bool :=
  let sense := fld ctl 0 2
  p.comp == (if ctl.testBit 2 then Comparator.cl else Comparator.ch) && (sense == 2 || (sense == 0 && p.rising) || (sense == 1 && !p.rising))

/-- A stamp lies in the run's span (R138). -/
def inSpan (x : Site) (t : Int) : Bool := decide (0 ≤ t) && (match x.tClose with | some c => decide (t < c) | none => true)

/-- A numbered stamp that passed the window: decimation, then the interval unit and the queue, with the EPOCH pairs that must come
before its record (R140, R143, R144). -/
def State.numberStamp (s : State) (k c : Nat) (ctl : Nat) (v : Option Nat) (p : PmStamp) : State :=
  let t := p.t
  let rising := p.rising
  let x := s.chan c
  let n := x.pmNum
  let ok := match fld ctl 4 2 with
    | 0 => true
    | 1 => n % (fld ctl 8 16 + 1) == 0
    | _ => v.isSome && x.pmVec != v
  let s := s.setChan c { x with pmNum := n + 1, pmVec := if v.isSome then v else x.pmVec }
  if !ok then s
  else
    let s := s.feedSlots k c p v
    if !ctl.testBit 3 then s
    else
      let s := if ((s.site k).epochPairs : Int) * 2 ^ 50 ≤ t then s.siteEpochPair k (s.site k).epochPairs else s
      let x := s.chan c
      let r := BitVec.ofNat 64 (2 ^ 61 + 2 ^ 60 * b2n rising + 2 ^ 53 * c + ofSigned 53 t)
      let (q, g) := enqueue 4096 2 x.pmQ x.pmDropGap r
      s.setChan c { x with pmQ := q, pmDropGap := g, pmDrop := if x.pmDropGap < g then satAdd 32 x.pmDrop 1 else x.pmDrop }

/-- A crossing whose vector is known: sense, span, dead time and window in turn (R140), under the settings of the vector that it
belongs to (R141); one that belongs to none takes the settings of its time. -/
def State.placeStamp (s : State) (k c : Nat) (p : PmStamp) : State :=
  let v := s.pmVector k c p.t
  let (ctl, on) := match (s.site k).recent.find? (fun m => some m.ord == v) with
    | some m => s.pmAt k c m.start
    | none => s.pmAt k c p.t
  if !on || !pmSelects ctl p || !inSpan (s.site k) p.t then s
  else
    let x := s.chan c
    let dead := match x.pmLast with | some l => decide (p.t < l + 1600) | none => false
    if dead then s.setChan c { x with pmDead := satAdd 32 x.pmDead 1 }
    else
      let s := s.setChan c { x with pmLast := some p.t }
      if ctl.testBit 6 && v.isNone then s else s.numberStamp k c ctl v p

/-- A bound below every correction that a vector still to come can take: the loop as it stands with the votes that lower it. -/
def trackLow (tr : Track) : Int := min 0 (tr.votes.foldl (fun a v => a + min 0 v.step) tr.tInt / 256 - 1)

/-- A stamp can be placed: every vector whose window could hold it has been issued, or the run has ended. -/
def pmReady (cv : Tab Nat) (k : Nat) (x : Site) (t : Int) : Bool :=
  x.tClose.isSome || decide (t < x.acc + (if siteOn cv k mST then trackLow x.track else 0))

/-- Place every waiting stamp of a channel whose vector is known. -/
def State.settleStamps (s : State) (k c : Nat) : State :=
  let go := (s.chan c).pmWait.takeWhile (fun p => pmReady s.cfg.committed k (s.site k) p.t)
  go.foldl (fun s p => (s.modChan c (fun x => { x with pmWait := x.pmWait.drop 1 })).placeStamp k c p) s

/-- INTERVAL_LATCH: the latch at the boundary that ends every REPORT vectors, or at t_close, once every stamp of the period has been
seen (R150). -/
def execIntervalLatch (slot : Fin 64) (s : State) : Host.Outcome State Fault Refusal :=
  let i := slot.val
  let w := s.pairWord i
  match s.slotSite i with
  | none => .next s
  | some k =>
    if !pairOn w || (s.slot i).closed then .next s
    else
      let u := (s.settleStamps k (pairA w)).settleStamps k (pairB w)
      let x := u.site k
      let seen := fun c (t : Int) => decide (t ≤ u.stampBound k c)
      let b := (u.slot i).nextLatch
      let old := x.recent.filter (fun m => decide (m.ord < b))
      if 0 < u.reportsDue k i then
        (if old.all (fun m => [pairA w, pairB w].all (fun c => seen c (u.vectorEnd k c m))) then .next (u.latchReport k i) else .next s)
      else
        match x.tClose with
        | some t => if seen (pairA w) t && seen (pairB w) t then .next (u.latchSlot i (fun _ => false) x.vec true) else .next s
        | none => .next s

/-- The level of a comparator of a channel now, by its newest sample; an open input reads deasserted (R49). -/
def chanLevels (x : Chan) : Bool × Bool := match x.pins with | p :: _ => (p.ch, p.cl) | [] => (false, false)

/-- A sample put among a channel's samples, newest first. -/
def insertPin (p : PinSample) : List PinSample → List PinSample
  | [] => [p]
  | u :: us => if u.t ≤ p.t then p :: u :: us else u :: insertPin p us

/-- A crossing at root time `t` as a stamp of a channel: the arrival less the epoch and K_C (R134). A rising crossing is CH asserting or
CL deasserting (R132). -/
def State.stampOf (s : State) (k c : Nat) (comp : Comparator) (asserted : Bool) (t : Nat) : PmStamp :=
  { t := (t : Int) - (s.site k).epoch - cvKC s.cfg.committed c, root := t, comp := comp
    rising := match comp with | .ch => asserted | .cl => !asserted
    low := !s.ptu.tbWarm, cal := s.calBad c }

/-- A stamp put among those that wait, which stay in stamp order. -/
def insertWait (p : PmStamp) : List PmStamp → List PmStamp
  | [] => [p]
  | u :: us => if p.t < u.t then p :: u :: us else u :: insertWait p us

/-- A crossing of a channel of a site whose run has not reached IDLE waits for its vector, and is placed where that is known. -/
def State.crossing (s : State) (k c : Nat) (comp : Comparator) (asserted : Bool) (t : Nat) : State :=
  let p := s.stampOf k c comp asserted t
  if (s.site k).st == .idle || (s.site k).st == .armed || !inSpan (s.site k) p.t then s
  else (s.modChan c (fun x => { x with pmWait := insertWait p x.pmWait })).settleStamps k c

/-- Changes of a channel's comparators from root time `a` on, oldest first, read from its samples newest first. -/
def pinChanges (a : Int) : List PinSample → List (Nat × Comparator × Bool)
  | [] => []
  | p :: rest =>
    if (p.t : Int) < a then []
    else
      let (h, l) := match rest with | q :: _ => (q.ch, q.cl) | [] => (false, false)
      pinChanges a rest ++ (if p.ch != h then [(p.t, Comparator.ch, p.ch)] else []) ++ (if p.cl != l then [(p.t, Comparator.cl, p.cl)] else [])

/-- At the run epoch: crossings that arrived before it and whose stamps are zero or more, which a negative K_C makes (R138). -/
def State.epochStamps (s : State) (k c : Nat) : State :=
  let a : Int := (s.site k).epoch + cvKC s.cfg.committed c
  (pinChanges a (s.chan c).pins).foldl (fun s e => s.crossing k c e.2.1 e.2.2 e.1) s

/-- DUT_CROSSING: a comparator output of a channel changes at root TU `t`; the samplers see it from then on, and the TDC stamps
it where EP is on (R49, R132). -/
def execDutCrossing (c : Fin 128) (comp : Comparator) (asserted : Bool) (t : Nat) (s : State) :
    Host.Outcome State Fault Refusal :=
  let s := s.advance t
  let x := s.chan c.val
  let (h, l) := chanLevels x
  let p : PinSample := match comp with
    | .ch => { t := t, ch := asserted, cl := l }
    | .cl => { t := t, ch := h, cl := asserted }
  if (match comp with | .ch => h | .cl => l) == asserted then .next s
  else
    let s := s.setChan c.val { x with pins := insertPin p x.pins }
    match s.siteOf c.val with
    | some k => .next (s.crossing k c.val comp asserted t)
    | none => .next s

/-! ### Time-base warm-up (R145, R146) -/

/-- TB_WARM changes: the event, the moment of a fall, the WARMUP flag of open bags (R145, R146, R210). -/
def State.setTbWarm (s : State) (b : Bool) : State :=
  if s.ptu.tbWarm = b then s
  else
    let s := { s with ptu := { s.ptu with tbWarm := b, falls := if b then s.ptu.falls else s.now :: s.ptu.falls } }
    let s := if b then s else
      { s with acq := { s.acq with streams := s.acq.streams.map (fun e =>
          let warm := fun (g : Bag) => { g with warmup := true }
          (e.1, { e.2 with cur := e.2.cur.map warm, curSum := e.2.curSum.map warm })) } }
    s.event 2 (b2n b) 0

/-- TB_WARM: a management tick samples OCXO_READY; TB_WARM rises at the fourth high sample in a row and falls at a low one,
with source 76; on a Branch in forwarded mode it follows the link instead, but in HOLDOVER (R145, R419). -/
def execTbWarm (ocxoHigh : Bool) (s : State) : Host.Outcome State Fault Refusal :=
  let s := { s with boot := { s.boot with ocxo := ocxoHigh } }
  let n := if ocxoHigh then min 4 (s.ptu.warmTicks + 1) else 0
  let s := { s with ptu := { s.ptu with warmTicks := n } }
  let own := !(s.role == 2 && s.forwarded) || s.ptu.st == .holdover
  let fell := !ocxoHigh && (s.ptu.tbWarm || (s.src 76).active)
  let s := if fell then s.fault 76 0 else s
  if own then .next (s.setTbWarm (n == 4)) else .next s

end Sys2Proof.Machine
end

