-- ==== Sys2Proof/Machine/Trim.lean ====
section
/-! DEFINITION. Trims as they act on edges, samplers and stamps (R360, Table 16.1), and where an edge stands on the frame grid (R16,
R17). -/

namespace Sys2Proof.Machine

/-- The nominal value of a field of a trim block. -/
def trimNominal (off : Nat) : Nat := if off % 128 < 16 then 512 else 0

/-- A field of a trim block as applied, and as calibrated; `k` is block * 128 + byte offset. -/
def State.trim (s : State) (k : Nat) : Nat := tget (trimNominal k) s.cal.trims k
def State.calibrated (s : State) (k : Nat) : Nat := tget (trimNominal k) s.cal.targets k

/-- Steps of 62.5 fs that the trims add to a DE or DH edge: the code of its output and transition, DUTY on a falling one, and the
linearisation of its interpolator setting (R360, Table 16.1). -/
def State.edgeTrim (s : State) (c : Nat) (de level : Bool) (interp : Nat) : Int :=
  let b := c * 128
  let code := s.trim (b + (if de then 4 else 0) + (if level then 0 else 2))
  let duty := if level then 0 else sfld (s.trim (b + 16 + b2n de)) 0 8
  (code : Int) + duty + sfld (s.trim (b + 24 + min 63 (interp * 64 / 500))) 0 8

/-- Steps of 62.5 fs that the trims add to a strobe: of the main sampler by its input, CH or CL, and of the offset sampler (R360). -/
def State.strobeTrim (s : State) (c : Nat) (cl ofs : Bool) : Nat := s.trim (c * 128 + (if ofs then 12 else if cl then 10 else 8))

/-- Shift of a sampler's threshold in 0.5 mV: main CH, main CL, offset CH, offset CL (R360). -/
def State.thresholdTrim (s : State) (c : Nat) (cl ofs : Bool) : Int := sfld (s.trim (c * 128 + 18 + b2n cl + 2 * b2n ofs)) 0 8

/-- An edge time split from the start of the frame in which it falls: coarse steps of 500 TU and the interpolator's rest (R17); with the
trims of its path (R360). -/
def State.edgePlace (s : State) (c : Nat) (de level : Bool) (t : Int) : EdgePlace :=
  let r := (t % (tuPerFrame : Int)).toNat
  { frame := t / (tuPerFrame : Int), coarse := r / 500, interp := r % 500, trim := s.edgeTrim c de level (r % 500) }

end Sys2Proof.Machine
end

