-- ==== Sys2Proof/Machine/Edges.lean ====
section
/-! DEFINITION. Edge placement and the response path: what a vector schedules on a channel (chapters 2, 3, 7), the ordering and
merge rules (R42 to R46), the verdict of a strobe, counters, records and the fail log (R108 to R123), strobe tracking (R124 to
R127), serial-burst alignment (R129 to R131) and offset samples (R160 to R162). -/

namespace Sys2Proof.Machine

/-- The frame that contains a start time (R16). -/
def frameOf (start : Nat) : Nat := start / tuPerFrame

/-! ### Ordering and merging (R42 to R46) -/

def isWindow (e : Edge) : Bool := match e.strobe with | some i => i.window | none => false

def isStrobe (e : Edge) : Bool := e.cls == .strobe

/-- Of two edges, the one that is earlier for the merge rule: by time, then vector, then place in D0 to C1 (R44). -/
def edgeBefore (a b : Edge) : Bool :=
  decide (a.t < b.t) || (a.t == b.t && (decide (a.ord < b.ord) || (a.ord == b.ord && decide (a.slot < b.slot))))

/-- An edge put among the pending edges of a channel; drive edges and strobes are each kept in order. -/
def insertEdge (e : Edge) : List Edge → List Edge
  | [] => [e]
  | u :: us => if isStrobe u == isStrobe e && edgeBefore e u then e :: u :: us else u :: insertEdge e us

/-- Reach of the merge rule for a class, exclusive, in TU (R44). -/
def mergeGap : EdgeClass → Int
  | .strobe => 200
  | _ => 400

/-- A later edge of the class merges this one away (R44). -/
def isMerged (all : List Edge) (e : Edge) : Bool :=
  !isWindow e && all.any (fun f => f.cls == e.cls && edgeBefore e f && !isWindow f && decide (f.t < e.t + mergeGap e.cls))

/-- An edge of a later vector overtakes this one (R43). -/
def isOvertaken (new : List Edge) (e : Edge) : Bool :=
  new.any (fun f => f.cls == e.cls && decide (e.ord < f.ord) && decide (f.first < e.t))

/-! ### Compare states (Table 2.9, R36) -/

/-- Compare state code of a CH and CL pair. -/
def pairCode (ch cl : Bool) : Nat := if ch then (if cl then 3 else 1) else (if cl then 0 else 2)

/-- State of a channel at a root time, from its samples newest first; an open input reads deasserted (R49). -/
def stateAt (pins : List PinSample) (t : Int) : Nat :=
  match pins.find? (fun p => decide ((p.t : Int) ≤ t)) with
  | some p => pairCode p.ch p.cl
  | none => 2

/-- A state other than `s0` lasts 200 TU among ascending changes, from `cur` that began at `since`, to the end `b`. -/
def changedScan (s0 : Nat) (b : Int) : List (Int × Nat) → Nat → Int → Bool
  | [], cur, since => cur != s0 && decide (200 ≤ b - since)
  | (t, st) :: rest, cur, since =>
    if st = cur then changedScan s0 b rest cur since
    else (cur != s0 && decide (200 ≤ t - since)) || changedScan s0 b rest st t

/-- CHANGED of a window [a, b) (R36). -/
def changedIn (pins : List PinSample) (a b : Int) : Bool :=
  let s0 := stateAt pins a
  let inner := (pins.filter (fun p => decide (a < (p.t : Int)) && decide ((p.t : Int) < b))).reverse
  changedScan s0 b (inner.map (fun p => ((p.t : Int), stateAt pins p.t))) s0 a

/-! ### Strobe tracking (R124 to R127) -/

/-- 2π√(π/2) and √(π/2)/2, scaled by 10^45. -/
def trackA : Nat := 7874804972861209872145322997233602271155842691
def trackB : Nat := 626657068657750125603941321202761313251746685

/-- Nearest integer of n / d, halves to even. -/
def roundEven (n d : Nat) : Nat :=
  let q := n / d
  let r := 2 * (n % d)
  if d < r ∨ (r = d ∧ q % 2 = 1) then q + 1 else q

/-- Step Δ of a vote in 1/256 TU: 2π BW Δt σ √(π/2), with Δt limited to 1/(4π BW); none for a first vote (R126). -/
def voteStep (word : Nat) (dt : Option Nat) : Nat :=
  let bw := fld word 8 5
  let sigma := fld word 16 13
  let n := match dt with
    | some d => if 636620 ≤ d * bw then trackB * sigma * 256 * 10000000 else trackA * bw * d * sigma * 256 * 125 / 100
    | none => trackB * sigma * 256 * 10000000
  max 1 (roundEven n (10 ^ 45 * 10000000))

/-- Every 16 votes in a row hold both signs. -/
def mixedVotes : List Bool → Bool
  | [] => true
  | v :: vs => (decide ((v :: vs).length < 16) || ((v :: vs).take 16).any (· != v)) && mixedVotes vs

/-- A vote is taken at time t with sign `up` (R126, R127). -/
def trackVote (word : Nat) (tr : Track) (t : Int) (up : Bool) : Track :=
  let step : Int := voteStep word (tr.lastVote.map (fun l => (t - l).toNat))
  let h := (up :: tr.history).take 256
  let lock := if h.length = 256 ∧ h.all (· == up) then false
    else if 64 ≤ h.length ∧ mixedVotes (h.take 64) then true else tr.lock
  { tr with votes := tr.votes ++ [⟨t, if up then step else -step⟩], count := satAdd 32 tr.count 1, history := h,
            lock := lock, lastVote := some t }

/-- The loop brought to a vector that starts at S with period P: every vote with t + 32,000 TU up to S acts, then the clamp
(R126, R127). -/
def trackTo (tr : Track) (start : Int) (p : Nat) : Track :=
  let due := tr.votes.filter (fun v => decide (v.t + 32000 ≤ start))
  let sum := due.foldl (fun a v => a + v.step) tr.tInt
  let rest := tr.votes.filter (fun v => !decide (v.t + 32000 ≤ start))
  let lim : Int := 384 * p
  if lim < sum then { tr with votes := rest, tInt := lim, limit := satAdd 32 tr.limit 1, lock := false, history := [] }
  else if sum < -lim then { tr with votes := rest, tInt := -lim, limit := satAdd 32 tr.limit 1, lock := false, history := [] }
  else { tr with votes := rest, tInt := sum }

/-- T in whole TU, halves to even (R41). -/
def trackT (tr : Track) : Int := if 0 ≤ tr.tInt then roundEven tr.tInt.toNat 256 else -(roundEven (-tr.tInt).toNat 256 : Int)

/-! ### Serial-burst alignment (R129 to R131) -/

/-- The slip in use on a channel in SB (R131). -/
def slipOf (cv : Tab Nat) (x : Chan) (c : Nat) : Nat := if x.alignStatus = 1 then x.slip else fld (cvSbWord cv c) 0 5

/-- One strobe of the search against all 32 slips. -/
def alignCount (x : Chan) (i : StrobeInfo) (st : Nat) : Chan :=
  if i.cop = 4 ∧ (st = 0 ∨ st = 1) then
    { x with
      alignSeen := x.alignSeen + 1
      alignBad := x.alignBad ||| BitVec.ofNat 32 (maskOf 32 (fun n => decide (n ≤ i.j) && (i.hist.testBit n != (st == 1)))) }
  else x

/-- The search's result. -/
def alignEnd (x : Chan) : Chan :=
  if x.alignSeen < 64 then { x with alignStatus := 4 }
  else
    match (List.range 32).filter (fun n => !x.alignBad.getLsbD n) with
    | [n] => { x with alignStatus := 1, slip := n }
    | [] => { x with alignStatus := 2 }
    | _ => { x with alignStatus := 3 }

/-- End a search whose vectors have all been issued and judged. -/
def State.alignSettle (s : State) (k c : Nat) : State :=
  let x := s.chan c
  if x.searchLen != 0 && x.alignStatus == 0 && decide (x.searchLen ≤ (s.site k).vec)
      && x.pend.all (fun e => match e.strobe with | some i => !i.search | none => true) then s.setChan c (alignEnd x)
  else s

/-! ### A strobe's outcome (R108 to R123) -/

/-- Request latches (R84): key 2·source + falling for sources 1 to 16, 34 host request, 36 site fail. A set latch keeps the
earlier time. -/
def setLatch (l : Tab (Option Int)) (key : Nat) (t : Int) : Tab (Option Int) :=
  tset none l key (some (match tget none l key with | some u => min u t | none => t))

/-- A record enters a channel's response queue of 512 (R115). -/
def pushResp (x : Chan) (r : BitVec 64) : Chan :=
  let (q, g) := enqueue 512 1 x.respQ x.respDrop r
  { x with respQ := q, respDrop := g }

def changeRecord (st c vec : Nat) : BitVec 64 := BitVec.ofNat 64 (st * 2 ^ 59 + c * 2 ^ 52 + vec % 2 ^ 52)

def failRecord (field c vec : Nat) : BitVec 64 := BitVec.ofNat 64 (3 * 2 ^ 61 + field * 2 ^ 59 + c * 2 ^ 52 + vec % 2 ^ 52)

/-- Strobe field of a FAIL record (Table 5.2). -/
def failField (bits : Nat) : Nat := fld bits 0 2

/-- Fail-log entries of a failing vector (Table 5.4). -/
def logEntries (cv : Tab Nat) (k : Nat) (r : VecRec) : List (BitVec 256) :=
  let cs := cvChans cv k
  let w := cvWidth cv k
  let sb := cs.any (fun c => chanOn cv k c mSB)
  let bits := fun p => match cs[p]? with | some c => tget 0 r.fails c | none => 0
  let entry := fun part strobes mask => BitVec.ofNat 256 (r.vec % 2 ^ 52 + part * 2 ^ 52 + b2n sb * 2 ^ 54
    + b2n r.window * 2 ^ 55 + r.seg * 2 ^ 64 + r.pass % 2 ^ 24 * 2 ^ 80 + strobes * 2 ^ 104 + mask * 2 ^ 128)
  if !sb then
    [entry 0 ((List.range w).foldl (fun a p => a ||| bits p) 0) (maskOf 128 (fun p => bits p != 0))]
  else
    (List.range (ceilDiv w 32)).map (fun part =>
      let nib := fun q => match cs[32 * part + q]? with
        | some c => if chanOn cv k c mSB then fld (bits (32 * part + q)) 2 4 else fld (bits (32 * part + q)) 0 2
        | none => 0
      entry part ((List.range 32).foldl (fun a q => a ||| bits (32 * part + q)) 0)
        ((List.range 32).foldl (fun a q => a + nib q * 2 ^ (4 * q)) 0))

/-- Drop the entries of the oldest vectors until `n` more fit in `cap`; the count of vectors dropped. -/
def makeRoom (cap n : Nat) : Nat → List (BitVec 256) → List Nat → Nat → List (BitVec 256) × List Nat × Nat
  | 0, log, vs, d => (log, vs, d)
  | fuel + 1, log, vs, d =>
    if log.length + n ≤ cap then (log, vs, d)
    else
      match vs with
      | [] => (log, vs, d)
      | v :: _ =>
        let m := (vs.takeWhile (· == v)).length
        makeRoom cap n fuel (log.drop m) (vs.drop m) (d + 1)

/-- A failing vector of a site enters the log (R119). -/
def logVector (cv : Tab Nat) (k : Nat) (x : Site) (r : VecRec) : Site :=
  let es := logEntries cv k r
  let cap := 256 * fld (cvResponse cv k) 8 8
  let put := fun (log : List (BitVec 256)) vs ov => { x with log := log ++ es, logVecs := vs ++ es.map (fun _ => r.vec), overflow := ov }
  if x.log.length + es.length ≤ cap then put x.log x.logVecs x.overflow
  else if (cvResponse cv k).testBit 2 && decide (es.length ≤ cap) then
    let (log, vs, d) := makeRoom cap es.length (x.log.length + 1) x.log x.logVecs 0
    put log vs (satAdd 32 x.overflow d)
  else { x with overflow := satAdd 32 x.overflow 1 }

/-- The stop-on-fail condition after failing vector r (R120). -/
def stopOnFail (cv : Tab Nat) (k : Nat) (x : Site) (r : VecRec) : Bool :=
  match fld r.resp 0 2 with
  | 1 => decide (fld r.resp 16 32 ≤ x.failCount)
  | 2 => decide (256 * fld (cvResponse cv k) 8 8 < x.log.length + (logEntries cv k r).length)
  | _ => false

/-- A vector of the site is judged whole (R111, R118, R120). -/
def closeVector (cv : Tab Nat) (k : Nat) (x : Site) (r : VecRec) : Site :=
  if r.isMatch || r.fails.all (fun f => f.2 == 0) then x
  else
    let x := { x with failCount := satAdd 32 x.failCount 1, firstFail := some (x.firstFail.getD (r.vec % 2 ^ 52)) }
    let x := if r.capture then logVector cv k x r else x
    if x.failStop.isNone && stopOnFail cv k x r then { x with failStop := some (r.lastFail + 64000) } else x

/-- Judge whole every leading vector that has no strobe left. -/
def closeVectors (cv : Tab Nat) (k : Nat) (x : Site) : Site :=
  let done := x.vecs.takeWhile (fun r => r.left.isEmpty)
  done.foldl (closeVector cv k) { x with vecs := x.vecs.drop done.length }

/-- A strobe of a channel is done: dropped, sampled, or judged with its fail bit. The channel's vector closes with its last
strobe (R111 to R114). -/
def State.strobeDone (s : State) (k c : Nat) (e : Edge) (fail : Bool) : State :=
  match e.strobe with
  | none => s
  | some i =>
    let cv := s.cfg.committed
    let site := s.site k
    match site.vecs.find? (fun r => r.vec == e.vec) with
    | none => s
    | some r =>
      let n := tget 0 r.left c - 1
      let bits := if fail then tget 0 r.fails c ||| 2 ^ i.sub else tget 0 r.fails c
      let r' := { r with
        left := tset 0 r.left c n
        fails := tset 0 r.fails c bits
        window := r.window || (fail && i.window)
        lastFail := if fail then max r.lastFail e.t else r.lastFail }
      let site := { site with
        vecs := site.vecs.map (fun q => if q.vec = e.vec then r' else q)
        latches := if fail then setLatch site.latches 36 (e.t + 64000) else site.latches }
      let s := if n = 0 ∧ bits ≠ 0 then
          let x := s.chan c
          let x := { x with failCount := satAdd 32 x.failCount 1, firstFail := some (x.firstFail.getD (r.vec % 2 ^ 52)) }
          let x := if r.capture && r.resp.testBit 3 then pushResp x (failRecord (failField bits) c r.vec) else x
          s.setChan c x
        else s
      s.setSite k (closeVectors cv k site)

/-- Expected state of a strobe: 0 low, 1 high, 2 mid; none for no expectation (Table 5.1). -/
def expectOf (cop : Nat) (bit : Bool) : Option Nat :=
  match cop with
  | 1 => some 0
  | 2 => some 1
  | 3 => some 2
  | 4 => some (b2n bit)
  | _ => none

/-- The survey that holds a channel's offset sampler, if any (R163). -/
def surveyOf (x : Site) (c : Nat) : Option Survey := x.surveys.find? (fun v => v.channels.testBit c)

/-- The offset sample of a strobe: survey or staged counts (R160, R162, R163). A strobe placed for another point counts nothing. -/
def offsetCount (sv : Option Survey) (x : Chan) (i : StrobeInfo) (miss : Bool) : Chan :=
  if i.es = 1 then { x with esCompared := satAdd 32 x.esCompared 1, esMismatch := if miss then satAdd 32 x.esMismatch 1 else x.esMismatch }
  else
    match sv with
    | some v =>
      if i.es == 2 && v.counting && i.survey == (v.task, v.points) && decide (x.svCompared < v.dwell) then
        { x with svCompared := x.svCompared + 1, svMismatch := if miss then x.svMismatch + 1 else x.svMismatch }
      else x
    | none => x

/-- The state of a channel at the offset sample of a strobe (R160). -/
def State.offsetState (s : State) (k c : Nat) (e : Edge) (i : StrobeInfo) : Nat :=
  stateAt (s.chan c).pins ((s.site k).epoch + e.first + i.offset)

/-- A strobe's tracking vote, where it has one: none at a sample in the middle state or with both comparators low (R125). -/
def State.voteSample (s : State) (k c : Nat) (e : Edge) : State :=
  match e.strobe with
  | none => s
  | some i =>
    match i.votes with
    | none => s
    | some hi =>
      let off := s.offsetState k c e i
      if i.masked || i.search || off == 2 || off == 3 then s
      else s.modSite k (fun y => { y with
        track := trackVote (cvTracking s.cfg.committed k) y.track (e.first + i.offset) (off != b2n hi) })

/-- A strobe's offset sample is taken: its counts and its vote (R125, R160, R163). -/
def State.offsetSample (s : State) (k c : Nat) (e : Edge) : State :=
  match e.strobe with
  | none => s
  | some i =>
    let x := s.chan c
    let slip := if !i.burst then 0 else if x.alignStatus = 1 then x.slip else i.slip
    let void := i.masked || i.search || (i.burst && decide (i.j < slip))
    let s := if i.es = 0 || void then s
      else
        match expectOf i.cop (i.hist.testBit slip) with
        | some w => s.setChan c (offsetCount (surveyOf (s.site k) c) x i (s.offsetState k c e i != w))
        | none => s
    s.voteSample k c e

/-- A strobe takes an offset sample. -/
def hasSample (e : Edge) : Bool := match e.strobe with | some i => i.cop != 0 && (i.es != 0 || i.votes.isSome) | none => false

/-- When the offset sample of a strobe falls. -/
def sampleTime (e : Edge) : Int := match e.strobe with | some i => e.first + i.offset | none => e.first

/-- A strobe that survived ordering and merging reaches its time (R108 to R123, R131). Its offset sample is taken apart. -/
def State.judge (s : State) (k c : Nat) (e : Edge) : State :=
  match e.strobe with
  | none => s
  | some i =>
    if i.cop = 0 then s.strobeDone k c e false
    else
      let s := if i.burst && !i.search then s.alignSettle k c else s
      let x := s.chan c
      let ep : Int := (s.site k).epoch
      let st := stateAt x.pins (ep + e.first)
      let changed := i.window && changedIn x.pins (ep + e.first) (ep + e.t)
      let slip := if !i.burst then 0 else if x.alignStatus = 1 then x.slip else i.slip
      let exp := expectOf i.cop (i.hist.testBit slip)
      let void := i.masked || i.search || (i.burst && decide (i.j < slip))
      let x := if st = 3 then { x with invalid := satAdd 32 x.invalid 1 } else x
      let x := if i.search && !i.masked then alignCount x i st else x
      let x := if i.cc && i.capture && !(void || i.lmask) && x.last != some (BitVec.ofNat 2 st) then
          { pushResp x (changeRecord st c e.vec) with last := some (BitVec.ofNat 2 st) }
        else x
      let s := s.setChan c x
      let fail := match exp with | some w => st != w || changed | none => false
      if i.isMatch then
        let s := if exp.isSome && !(void || i.lmask) then
            s.modSite k (fun y => { y with matchRes := y.matchRes ++ [(e.t, !fail,
              match y.vecs.find? (fun r => r.vec == e.vec) with | some r => r.passId | none => 0)] })
          else s
        s.strobeDone k c e false
      else s.strobeDone k c e (fail && !(void || i.lmask))

/-! ### Placing (R34, R43 to R46) -/

/-- A drive edge takes effect; the ball shows a transition only where the level changes (R34), and none while THERM_SHUTDOWN has turned
the drivers off (R424). -/
def State.placeDrive (s : State) (c : Nat) (e : Edge) : State :=
  let x := s.chan c
  if s.boot.thermLatched then s
  else if e.cls == .de then
    if x.de = e.level then s else (s.setChan c { x with de := e.level }).emit (.ball c true e.level e.t (s.edgePlace c true e.level e.t))
  else if x.dh = e.level then s else (s.setChan c { x with dh := e.level }).emit (.ball c false e.level e.t (s.edgePlace c false e.level e.t))

/-- An edge that no later vector can touch is merged away or takes effect. -/
def State.placeEdge (s : State) (k c : Nat) (all : List Edge) (e : Edge) : State :=
  if isMerged all e then
    let s := s.rcAdd (aEdgeMerge c) 1
    if isStrobe e then s.strobeDone k c e false else s
  else if isStrobe e then s.judge k c e else s.placeDrive c e

/-- The latest time at which a strobe samples anything. -/
def sampleEnd (e : Edge) : Int := if hasSample e then max e.t (sampleTime e) else e.t

/-- The latest reach of the merge rule from an edge. -/
def mergeEnd (e : Edge) : Int := if isWindow e then e.t else e.t + mergeGap e.cls - 1

/-- A strobe is placed; where it takes an offset sample it joins those whose sample is still to come. -/
def State.placeStrobe (s : State) (k c : Nat) (all : List Edge) (e : Edge) : State :=
  let s := s.placeEdge k c all e
  if hasSample e && !isMerged all e then s.modChan c (fun x => { x with late := x.late ++ [e] }) else s

/-- Offset samples of a channel's placed strobes that fall before `now` are taken. -/
def State.takeLate (s : State) (k c : Nat) (now : Int) : State :=
  let l := (s.chan c).late
  let s := s.modChan c (fun x => { x with late := x.late.filter (fun e => !decide (sampleTime e < now)) })
  (l.filter (fun e => decide (sampleTime e < now))).foldl (fun s e => s.offsetSample k c e) s

/-- A strobe still to be placed whose vote must act by now: no edge known so far removes it (DEDUCED, notes/assumptions/18.md). -/
def votesEarly (strobes : List Edge) (now : Int) (e : Edge) : Bool :=
  (match e.strobe with | some i => i.votes.isSome && i.cop != 0 | none => false) && decide (sampleTime e + 32000 ≤ now) && !isMerged strobes e

/-- The edge with its vote spent. -/
def voted (e : Edge) : Edge := { e with strobe := e.strobe.map (fun i => { i with votes := none }) }

/-- Votes of a channel that must act by `now` although their strobes cannot be placed yet (R126). -/
def State.earlyVotes (s : State) (k c : Nat) (now : Int) : State :=
  let strobes := (s.chan c).pend.filter isStrobe
  let due := strobes.filter (votesEarly strobes now)
  if due.isEmpty then s
  else
    let s := due.foldl (fun s e => s.voteSample k c e) s
    s.modChan c (fun x => { x with pend := x.pend.map (fun e => if isStrobe e && votesEarly strobes now e then voted e else e) })

/-- Place the edges of a channel that no later edge, at `dB` or `sB` at the earliest, can touch; drive edges before `dNow` and strobes
before `now` only. -/
def State.settleChan (s : State) (k c : Nat) (dB dNow sB now : Int) : State :=
  let p := (s.chan c).pend
  let drives := p.filter (fun e => !isStrobe e)
  let strobes := p.filter isStrobe
  let ds := drives.takeWhile (fun e => decide (mergeEnd e < dB) && decide (e.t < dNow))
  let ss := strobes.takeWhile (fun e => decide (mergeEnd e < sB) && decide (e.t < now))
  let s := s.modChan c (fun x => { x with pend := drives.drop ds.length ++ strobes.drop ss.length })
  let s := ds.foldl (fun s e => s.placeEdge k c drives e) s
  let s := ss.foldl (fun s e => s.placeStrobe k c strobes e) s
  ((s.takeLate k c now).earlyVotes k c now).alignSettle k c

/-- Samples of a channel that no pending or later strobe can need are forgotten; the newest older one stays. -/
def prunePins (x : Chan) (horizon : Int) : Chan :=
  let keep := x.pins.takeWhile (fun p => decide (horizon < (p.t : Int)))
  { x with pins := keep ++ (x.pins.drop keep.length).take 1 }

/-- The earliest sample any pending strobe of a channel takes, from the epoch. -/
def firstSample (x : Chan) (d : Int) : Int :=
  (x.pend ++ x.late).foldl (fun m e => match e.strobe with | some i => min m (min e.first (e.first + i.offset)) | none => m) d

/-- The latest strobe that may be judged before a decision on source 18 is taken (R84, R201). -/
def judgeLimit (x : Site) (now : Int) : Int :=
  match x.tdp with
  | some (t, _) => if !x.decided && segSource x.entry == 18 then min now t else now
  | none => now

/-- Period and tracking correction of the newest vector of a site. -/
def lastMark (x : Site) : Nat × Int := match x.recent with | m :: _ => (m.period, m.tau) | [] => (0, 0)

/-- The least deskew that a channel's later vectors can have, no more than zero: of the committed words and of a pending commit's
(R47). -/
def State.lowDeskew (s : State) (c : Nat) (f : Nat → Int) : Int :=
  let low := min 0 (f (s.words c))
  match s.cfg.pending with
  | some p => (match p.items.find? (fun kv => kv.1 == itemKey 9 c) with | some kv => min low (f kv.2) | none => low)
  | none => low

/-- A drive edge this far ahead may still meet a deskew word that no commit holds yet: 5 µs of preparation, less the reach of a
deskew word (R39, R180). -/
def deskewAhead : Int := 40000000 - 262144

/-- A time later than any edge. -/
def farTime : Int := 2 ^ 100

/-- Bring a site's channels up to a time from its epoch. A site whose walk has ended places drive edges only up to then: a park may still
drop later ones (R496). Otherwise: given the earliest start of its next vector. Strobes earlier than `force`
are judged whatever later vectors might do to them. -/
def State.settleTo (s : State) (k : Nat) (next upTo force : Int) : State :=
  let cv := s.cfg.committed
  let x := s.site k
  let (p, _) := lastMark x
  let lag : Int := if siteOn cv k mST then trackLow x.track else 0
  let live := x.st == .run || x.st == .hold
  (cvChans cv k).foldl (fun s c =>
    let dLow := s.lowDeskew c (fun w => deskew (fld w 0 32))
    let cLow := s.lowDeskew c (fun w => deskew (fld w 32 32))
    let s := s.settleChan k c (min (next + dLow) (upTo + deskewAhead)) (if live then farTime else upTo + dLow) (max (next + cLow + lag) (force + 199)) upTo
    let y := s.chan c
    s.setChan c (prunePins y (x.epoch + firstSample y (upTo - 300000 - 8 * (p : Int))))) s

/-- Bring a site's channels up to now. -/
def State.settleSite (s : State) (k : Nat) (next : Int) : State :=
  s.settleTo k next ((s.now : Int) - (s.site k).epoch) (-farTime)

/-- Place every pending edge of a site: no vector follows (R48, R100). -/
def State.flushSite (s : State) (k : Nat) : State :=
  (s.siteChans k).foldl (fun s c => s.settleChan k c farTime farTime farTime farTime) s

/-- New edges of a channel's vector: those they overtake are dropped and counted, then they join (R43). -/
def State.addEdges (s : State) (k c : Nat) (new : List Edge) : State :=
  let p := (s.chan c).pend
  let gone := p.filter (isOvertaken new)
  let s := s.modChan c (fun x => { x with pend := new.foldl (fun l e => insertEdge e l) (p.filter (fun e => !isOvertaken new e)) })
  gone.foldl (fun s e =>
    let s := s.rcAdd (aEdgeOrder c) 1
    if isStrobe e then s.strobeDone k c e false else s) s

/-- Forced deassertion of DE at t_f: earlier DE edges are placed, later ones dropped uncounted; DH edges stand (R496). The merge rule is
applied among all the pending DE edges, those that are dropped included (DESIGN CHOICE, notes/assumptions/69.md). -/
def State.forceOff (s : State) (k c : Nat) (tf : Int) : State :=
  let p := (s.chan c).pend
  let de := p.filter (fun e => e.cls == .de)
  let s := s.modChan c (fun x => { x with pend := p.filter (fun e => e.cls != .de) })
  let s := (de.filter (fun e => decide (e.t < tf))).foldl (fun s e => s.placeEdge k c de e) s
  let x := s.chan c
  if x.de then (s.setChan c { x with de := false }).emit (.ball c true false tf (s.edgePlace c true false tf)) else s

/-- Forced deassertion in place, DE no later than DH (R18). -/
def State.forceIdle (s : State) (c : Nat) (dhToo : Bool) (t : Int) : State :=
  let x := s.chan c
  let s := if x.de then (s.setChan c { x with de := false }).emit (.ball c true false t (s.edgePlace c true false t)) else s
  let y := s.chan c
  if dhToo && y.dh then (s.setChan c { y with dh := false }).emit (.ball c false false t (s.edgePlace c false false t)) else s

/-! ### The algorithmic generator (R157 to R159) -/

/-- Register bits whose exclusive-OR is the new bit. -/
def genTaps (g : Nat) : Nat :=
  match fld g 0 3 with
  | 0 => 2 ^ 6 + 2 ^ 5
  | 1 => 2 ^ 8 + 2 ^ 4
  | 2 => 2 ^ 14 + 2 ^ 13
  | 3 => 2 ^ 22 + 2 ^ 17
  | 4 => 2 ^ 30 + 2 ^ 27
  | _ => fld g 64 32

/-- The register after a load of SEED. -/
def genLoad (g : Nat) : BitVec 32 :=
  if fld g 0 3 = 5 then BitVec.ofNat 32 (fld g 32 32) else BitVec.ofNat 32 (fld g 32 (genDegree g))

/-- One step: the bit supplied and the register after it. -/
def genStep (g : Nat) (r : BitVec 32) : Bool × BitVec 32 :=
  let inv := g.testBit 3
  if fld g 0 3 = 5 then (r.getLsbD (fld g 8 8) != inv, r + 1)
  else
    let b := (List.range 32).foldl (fun a i => a != ((genTaps g).testBit i && r.getLsbD i)) false
    let twist := fld g 0 3 == 2 || fld g 0 3 == 3 || fld g 0 3 == 4
    ((b != twist) != inv, BitVec.ofNat 32 ((r.toNat * 2 + b2n b) % 2 ^ genDegree g))

/-- `n` steps. -/
def genSteps (g : Nat) : Nat → BitVec 32 → List Bool × BitVec 32
  | 0, r => ([], r)
  | n + 1, r =>
    let (b, r) := genStep g r
    let (bs, r) := genSteps g n r
    (b :: bs, r)

/-! ### What a vector schedules on a channel (R23, R24, R32 to R38, R40) -/

/-- A vector as its site issues it. -/
structure VecIn where
  ord : Nat
  vec : Nat
  start : Nat
  period : Nat
  entry : Nat
  tau : Int
  deriving DecidableEq, Repr

/-- The stream bits of a channel for a vector, and its generator after it (R32, R159). In serial burst bit k of the position's value is
the k-th; a one-bit position's upper bits read as zero (R61, R62; DEDUCED, notes/assumptions/68.md). -/
def streamBits (cv : Tab Nat) (k c w code : Nat) (gen : BitVec 32) : List Bool × BitVec 32 :=
  let sb := chanOn cv k c mSB
  if chanOn cv k c mAO && weAlg w then genSteps (cvGen cv c) (if sb then 4 else 1) gen
  else if sb then ((List.range 4).map (fun i => code.testBit i), gen)
  else ([code.testBit 0], gen)

/-- Waveform entry index for a code of a segment entry (R24, R62). -/
def entryIndex (cv : Tab Nat) (k c e code : Nat) : Nat := if entryZero cv k c e then 0 else code

/-- Drive edges of a vector: class, place in D0 to C1, offset, level (Tables 2.6 and 2.7, R35). -/
def driveEdges (sb : Bool) (p w t : Nat) (bits : List Bool) : List (EdgeClass × Nat × Nat × Bool) :=
  let fmt := if sb then 0 else tsFormat t
  let off := if weEn w 3 then [(EdgeClass.de, 12, tsEdge t 3, false)] else []
  let level := fun b => match weDrive w with | 1 => false | 2 => true | 4 => !b | _ => b
  let d := level (bits.headD false)
  if weDrive w = 0 then (if weEn w 3 then off else [(EdgeClass.de, 12, 0, false)])
  else if 5 ≤ weDrive w then []
  else if fmt = 4 then off
  else
    (if weEn w 0 then (EdgeClass.de, 0, tsEdge t 0, true) :: (if fmt = 3 then [(EdgeClass.dh, 0, tsEdge t 0, !d)] else []) else [])
      ++ (if weEn w 1 then
          (if sb then (List.range 4).map (fun i => (EdgeClass.dh, 4 + i, tsEdge t 1 + i * p / 4, level (bits.getD i false)))
           else [(EdgeClass.dh, 4, tsEdge t 1, d)])
        else [])
      ++ (if weEn w 2 && !sb then
          (match fmt with
          | 1 => [(EdgeClass.dh, 8, tsEdge t 2, false)]
          | 2 => [(EdgeClass.dh, 8, tsEdge t 2, true)]
          | 3 => [(EdgeClass.dh, 8, tsEdge t 2, !d)]
          | _ => [])
        else [])
      ++ off

/-- Strobes of a vector: place, which strobe, open and time as offsets, window (R36, R37). -/
def strobeEdges (sb : Bool) (p w t : Nat) : List (Nat × Nat × Nat × Nat × Bool) :=
  if sb then (if weEn w 4 then (List.range 4).map (fun i => (16 + i, 2 + i, tsEdge t 4 + i * p / 4, tsEdge t 4 + i * p / 4, false)) else [])
  else if tsWindow t then (if weEn w 4 && weEn w 5 then [(20, 0, tsEdge t 4, tsEdge t 5, true)] else [])
  else (if weEn w 4 then [(16, 0, tsEdge t 4, tsEdge t 4, false)] else [])
    ++ (if weEn w 5 then [(20, 1, tsEdge t 5, tsEdge t 5, false)] else [])

/-- The last 32 expected bits as a number, bit s the one s bits back. -/
def histOf (bs : List Bool) : Nat := bs.foldr (fun b n => 2 * n + b2n b) 0

/-- One vector on one channel of a site: `code` is its position's value in the line, `poison` whether the line is poisoned. The
edges join the channel's pending edges. Answers the state and the strobes scheduled. -/
def State.issueChan (s : State) (k c : Nat) (v : VecIn) (code : Nat) (poison : Bool) : State × Nat :=
  let cv := s.cfg.committed
  let x := s.chan c
  let site := s.site k
  let sb := chanOn cv k c mSB
  let w := cvEntry cv c (segBank v.entry) (entryIndex cv k c v.entry code)
  let t := cvTset cv c (weTset w)
  let (bits, gen) := streamBits cv k c w code x.gen
  let expect := if sb then ((bits.reverse) ++ x.expect).take 35 else []
  let cop := if weCompare w = 0 ∨ 5 < weCompare w then 0 else if chanOn cv k c mFC then weCompare w else 5
  let kd : Int := (v.start : Int) + cvKD cv c
  let kc : Int := (v.start : Int) + cvKC cv c + v.tau
  let search := sb && decide (v.vec < x.searchLen) && x.alignStatus == 0
  let ref := siteOn cv k mST && fld (cvTracking cv k) 0 7 == c
  let sv := surveyOf site c
  let esOn := chanOn cv k c mES
  let offset := match sv with | some q => q.offset | none => cvOffset cv c
  let es := if !esOn then 0 else match sv with | some q => if q.counting then 2 else 0 | none => 1
  let e0 : Option Bool := match expectOf cop (bits.headD false) with
    | some 0 => if weEn w 4 then some false else none
    | some 1 => if weEn w 4 then some true else none
    | _ => none
  let vote := if ref then (match e0, site.track.prevE with | some a, some b => if a != b then some a else none | _, _ => none) else none
  let drives := (driveEdges sb v.period w t bits).map (fun d =>
    ({ ord := v.ord, vec := v.vec, cls := d.1, slot := d.2.1, first := kd + d.2.2.1, t := kd + d.2.2.1, level := d.2.2.2,
       strobe := none } : Edge))
  let strobes := (strobeEdges sb v.period w t).map (fun d =>
    let sub := d.2.1
    let hist := if sb then histOf (expect.drop (3 - (sub - 2))) % 2 ^ 32 else b2n (bits.headD false)
    let info : StrobeInfo := {
      window := d.2.2.2.2, sub := sub, cop := cop, hist := hist, j := 4 * v.vec + (sub - 2), burst := sb, masked := poison,
      lmask := x.maskedLevel, search := search, capture := segCapture v.entry, isMatch := segMatch v.entry, cc := chanOn cv k c mCC,
      slip := fld (cvSbWord cv c) 0 5,
      es := if sub = 1 then 0 else es, survey := match sv with | some q => (q.task, q.points) | none => (0, 0), votes := if sub = 0 then vote else none, offset := if es = 0 && vote.isNone then 0 else offset }
    ({ ord := v.ord, vec := v.vec, cls := .strobe, slot := d.1, first := kc + d.2.2.1, t := kc + d.2.2.2.1, level := false,
       strobe := some info } : Edge))
  let s := s.setChan c { x with gen := gen, expect := expect }
  let s := if ref && e0.isSome then s.modSite k (fun y => { y with track := { y.track with prevE := e0 } }) else s
  (s.addEdges k c (drives ++ strobes), strobes.length)

end Sys2Proof.Machine
end

