-- ==== Sys2Proof/Machine/Ecc.lean ====
section
/-! DEFINITION. The error-correcting code of the pattern memory: RS(80, 64) over GF(2^8), its codewords on the devices of a subchannel,
what its decoder makes of an error pattern, and the mark of a poisoned line (R346, R351). -/

namespace Sys2Proof.Machine

/-! ### The field and the code (R346) -/

/-- A field element times α, with the polynomial x^8 + x^4 + x^3 + x^2 + 1. -/
def gfTimesAlpha (a : Nat) : Nat := if 128 ≤ a then (2 * a) ^^^ 0x11D else 2 * a

def gfMul (a b : Nat) : Nat :=
  ((List.range 8).foldl (fun (acc : Nat × Nat) i => (if b.testBit i then acc.1 ^^^ acc.2 else acc.1, gfTimesAlpha acc.2)) (0, a)).1

/-- α to a power. -/
def alphaPow : Nat → Nat
  | 0 => 1
  | n + 1 => gfTimesAlpha (alphaPow n)

/-- A polynomial, its highest coefficient first, times (x − r). -/
def timesRoot (p : List Nat) (r : Nat) : List Nat := List.zipWith (· ^^^ ·) (p ++ [0]) (0 :: p.map (gfMul r))

/-- The generator: the product of (x − α^i) for i = 0 to 15. -/
def rsGenerator : List Nat := (List.range 16).foldl (fun p i => timesRoot p (alphaPow i)) [1]

/-- One symbol into the division by the generator. -/
def rsShift (rem : List Nat) (x : Nat) : List Nat :=
  let f := x ^^^ rem.headD 0
  List.zipWith (· ^^^ ·) (rem.tail ++ [0]) (rsGenerator.tail.map (gfMul f))

/-- The 16 check symbols of 64 data symbols; symbol 0 has the highest power (the order is the model's own, notes/assumptions/86.md). -/
def checkSymbols (data : List Nat) : List Nat := data.foldl rsShift (List.replicate 16 0)

/-- A line's codeword: symbols 0 to 63 are its bytes, 64 to 79 the check symbols. -/
def codewordOf (d : BitVec 512) : List Nat :=
  let data := (bytesOf 64 d.toNat).map (·.toNat)
  data ++ checkSymbols data

/-- A codeword that divides: its syndromes are zero. -/
def syndromesZero (w : List Nat) : Bool :=
  (List.range 16).all (fun i => w.foldl (fun v x => gfMul v (alphaPow i) ^^^ x) 0 == 0)

/-- What a poisoned line holds: zeros, with each check symbol exclusive-ORed with 0xA5 (R351). -/
def poisonWord : List Nat := (codewordOf 0).mapIdx (fun i x => if i < 64 then x else x ^^^ 0xA5)

/-- The device that carries a symbol. -/
def symbolDevice (i : Nat) : Nat := i / 8

/-- What a device puts on its 4 bits in a beat of a codeword's burst: the low nibble of a symbol first. -/
def deviceBeat (w : List Nat) (d beat : Nat) : Nat := w.getD (8 * d + beat / 2) 0 / (if beat % 2 = 0 then 1 else 16) % 16

/-! ### The decoder (R346, R349) -/

/-- What the decoder finds in a codeword. -/
inductive Ecc where
  | clean
  | corrected (device : Nat)
  | correctedWide (device : Nat)
  | uncorrectable
  deriving DecidableEq, Repr

/-- What errors change in a symbol. -/
def symbolError (e : Errors) (i : Nat) : Nat := e.foldl (fun v x => if x.1.val = i then v ^^^ x.2.toNat else v) 0

/-- The symbols in error outside erased devices. -/
def badSymbols (erased : List Nat) (e : Errors) : List Nat :=
  (List.range 80).filter (fun i => symbolError e i != 0 && !decide (symbolDevice i ∈ erased))

/-- The device with the most symbols in error (notes/assumptions/86.md). -/
def worstDevice (bad : List Nat) : Nat :=
  (List.range 10).foldl (fun b d => if bad.countP (fun i => symbolDevice i == b) < bad.countP (fun i => symbolDevice i == d) then d else b) 0

/-- The decoder corrects 8 symbol errors, or one erased device and 4 further errors (R346). -/
def decodeErrors (erased : List Nat) (e : Errors) : Ecc :=
  let bad := badSymbols erased e
  if bad.isEmpty then .clean
  else if 1 < erased.length ∨ (if erased.isEmpty then 8 else 4) < bad.length then .uncorrectable
  else
    let d := worstDevice bad
    if bad.countP (fun i => symbolDevice i == d) = 8 then .correctedWide d else .corrected d

end Sys2Proof.Machine
end

