-- ==== Sys2Proof/Machine/MemCtl.lean ====
section
/-! DEFINITION. The pattern memory controller (chapter 15): lines, error correction, poisoning, refresh state, failed lanes and
migration. -/

namespace Sys2Proof.Machine

/-! ### Periodic events -/

/-- The next moment of an event that recurs every `period` TU. -/
def State.nextMoment (s : State) (timer period : Nat) : Nat :=
  max (tget 0 s.timers timer + period) (ceilDiv s.now period * period)

/-- That moment has come. -/
def State.periodic (s : State) (timer period : Nat) : State :=
  let t := s.nextMoment timer period
  { s.advance t with timers := tset 0 s.timers timer t }

/-! ### The address map (R336, R337) -/

/-- Rank slice Z in lines (Table 15.1). -/
def State.rankSlice (s : State) : Nat := if s.mem.d32 then 2 ^ 32 else 2 ^ 31

def lineChan (l : Nat) : Nat := l % 4
def lineSub (l : Nat) : Nat := l / 4 % 2
def State.lineLogical (s : State) (l : Nat) : Nat := l / s.rankSlice
/-- Place of a line among the lines of its channel and rank, ascending. -/
def State.lineIndex (s : State) (l : Nat) : Nat := l % s.rankSlice / 4
/-- Burst column of a line, its low 4 and high 3 bits (Table 15.2). -/
def lineColumn (l : Nat) : Nat := fld l 3 4 + 16 * fld l 12 3
/-- Bank (group * 4 + bank) and row of a line (Table 15.2). -/
def lineBank (l : Nat) : Nat := fld l 7 3 * 4 + fld l 10 2
def State.lineRow (s : State) (l : Nat) : Nat := fld l 15 (if s.mem.d32 then 17 else 16)

/-- Physical rank of a logical rank of a channel (R337). -/
def State.physOf (s : State) (c k : Nat) : Nat := tget k s.mem.rankMap (c * 4 + k)
/-- A channel's spare, if it has one. -/
def State.spareOf (s : State) (c : Nat) : Option Nat := tget none s.mem.spare c

/-- The physical rank that serves a read of a line (R355). -/
def State.lineRank (s : State) (l : Nat) : Nat :=
  let r := s.physOf (lineChan l) (s.lineLogical l)
  match s.mem.migration with
  | some m => if m.chan = lineChan l ∧ m.source = r ∧ s.lineIndex l < m.progress then m.spare else r
  | none => r

/-! ### Events, banks, queue -/

/-- Event MEMORY of a rank of a channel (Table 11.12). -/
def State.memEvent (s : State) (c r detail : Nat) : State := s.event 0x000D (r + 4 * c) detail

def bankKey (c r sub bank : Nat) : Nat := ((c * 4 + r) * 2 + sub) * 32 + bank

/-- An access to a line opens its row; another row of the bank closes first (R341). -/
def State.touchBank (s : State) (l : Nat) : State :=
  let key := bankKey (lineChan l) (s.lineRank l) (lineSub l) (lineBank l)
  let row := s.lineRow l
  let old := tget (0, 0, 0) s.mem.banks key
  let idle := if old.2.2 ≠ 0 ∧ old.1 = row then old.2.2 else fld (s.reg aMcIdle) 0 11
  { s with mem := { s.mem with banks := tset (0, 0, 0) s.mem.banks key (row, s.now, idle) } }

/-- A trigger queues the migration of a rank; one queued or migrating adds nothing (R354). -/
def State.queueMigration (s : State) (c r : Nat) (front : Bool) : State :=
  let running := match s.mem.migration with | some m => m.chan == c && m.source == r | none => false
  if running || (c, r) ∈ s.mem.queue then s
  else { s with mem := { s.mem with queue := if front then (c, r) :: s.mem.queue else s.mem.queue ++ [(c, r)] } }

/-! ### Lines -/

/-- The data of a line; a poisoned line reads as all zeros (R106, R351). -/
def State.lineData (s : State) (l : Nat) : BitVec 512 := if l ∈ s.mem.poisoned then 0 else tget 0 s.mem.lines l

def State.isPoisoned (s : State) (l : Nat) : Bool := decide (l ∈ s.mem.poisoned)

/-- The rank that holds a line is out of service for writes, and no migration gives the line another place (R349, R355). -/
def State.writeBarred (s : State) (l : Nat) : Bool :=
  let c := lineChan l
  let r := s.physOf c (s.lineLogical l)
  let moving := match s.mem.migration with | some m => m.chan == c && m.source == r | none => false
  (s.rank c r).readOnly && !moving

/-- A line written whole with good data (R352). -/
def State.writeLine (s : State) (l : Nat) (d : BitVec 512) : State :=
  let s := s.touchBank l
  if s.writeBarred l then s
  else { s with mem := { s.mem with lines := tset 0 s.mem.lines l d, poisoned := s.mem.poisoned.filter (· != l) } }

/-- A line is poisoned: counted, logged and reported (R351). What a migration's source held stays there until the map changes (R350). -/
def State.poison (s : State) (l : Nat) : State :=
  let m := s.mem
  let s := { s with mem := { m with poisoned := if l ∈ m.poisoned then m.poisoned else l :: m.poisoned,
                                     poisonCount := satAdd 32 m.poisonCount 1, poisonLog := (l :: m.poisonLog).take 256 } }
  s.memEvent (lineChan l) (s.lineRank l) 2

/-- A line written poisoned: the destination of a copy of a poisoned line (R352). -/
def State.writePoisoned (s : State) (l : Nat) : State :=
  if l ∈ s.mem.poisoned || s.writeBarred l then s else (s.touchBank l).poison l

/-- Times within the last second, with one more. -/
def lastSecond (now : Nat) (ts : List Nat) : List Nat := now :: ts.filter (fun t => decide (now < t + tuPerSec))

/-- A corrected codeword: counted, attributed to its device, and perhaps a migration trigger (R347). -/
def State.corrected (s : State) (l d : Nat) (wide : Bool) : State :=
  let c := lineChan l
  let r := s.lineRank l
  let s := (s.rcAdd (aMcCorr c) 1).fault 41 (c + 2 ^ 8 * r + 2 ^ 16 * d)
  let x := s.rank c r
  let key := lineSub l * 10 + d
  let ts := lastSecond s.now (tget [] x.corr key)
  let ws := if wide then lastSecond s.now (tget [] x.wide key) else tget [] x.wide key
  let s := s.setRank c r { x with corr := tset [] x.corr key ts, wide := tset [] x.wide key ws }
  let th := fld (s.reg aMcCtrl) 4 12
  let hit := (th != 0 && decide (th ≤ ts.length)) || (wide && decide (4 ≤ ws.length))
  if hit && (s.reg aMcCtrl).testBit 16 && s.spareOf c != some r then s.queueMigration c r false else s

/-- A migration ends without its map change: the spare is retired, the migration waits for another (R357). -/
def State.abandonMigration (s : State) : State :=
  match s.mem.migration with
  | none => s
  | some m =>
    let s := { s with mem := { s.mem with
      migration := none, spare := tset none s.mem.spare m.chan none, queue := (m.chan, m.source) :: s.mem.queue
      poisoned := s.mem.poisoned.filter (fun l => !decide (l ∈ m.bad)) } }
    let s := s.setRank m.chan m.spare { s.rank m.chan m.spare with retired := true }
    (s.fault 47 (m.chan + 2 ^ 8 * m.source)).fault 44 m.chan

/-- The spare of the running migration. -/
def State.isTarget (s : State) (c r : Nat) : Bool :=
  match s.mem.migration with | some m => m.chan == c && m.spare == r | none => false

/-- An uncorrectable codeword counts and raises its source (Tables 15.8 and 19.1). -/
def State.noteUncorrectable (s : State) (c r : Nat) : State := (s.rcAdd (aMcUncorr c) 1).fault 42 (c + 2 ^ 8 * r)

/-- An uncorrectable codeword found by a read of an active rank: the line is poisoned, then its rank is queued (R350); in a
migration's spare it abandons the migration. -/
def State.uncorrectable (s : State) (l : Nat) : State :=
  let c := lineChan l
  let r := s.lineRank l
  if s.isTarget c r then (s.noteUncorrectable c r).abandonMigration
  else ((s.poison l).noteUncorrectable c r).queueMigration c r false

/-- The erased devices of the subchannel from which a line is read (R349). -/
def State.erasedDevices (s : State) (l : Nat) : List Nat :=
  ((s.rank (lineChan l) (s.lineRank l)).erased.filter (fun e => e.1 == lineSub l)).map (·.2)

/-- What the decoder finds in a line that shows errors (R346). -/
def State.decodeLine (s : State) (l : Nat) (e : Errors) : Ecc := decodeErrors (s.erasedDevices l) e

/-- A read of a line through the decoder, with the errors that its codeword shows: the state, the data, whether it is answered as
poisoned, and whether its ECC was clean. A poisoned line is recognised while its errors can be corrected (R346 to R352). -/
def State.memRead (s : State) (l : Nat) (e : Errors) : State × BitVec 512 × Bool × Bool :=
  let s := s.touchBank l
  match s.decodeLine l e with
  | .uncorrectable => (s.uncorrectable l, 0, true, false)
  | .clean => (s, s.lineData l, s.isPoisoned l, !s.isPoisoned l)
  | .corrected d => if s.isPoisoned l then (s, 0, true, false) else (s.corrected l d false, s.lineData l, false, false)
  | .correctedWide d => if s.isPoisoned l then (s, 0, true, false) else (s.corrected l d true, s.lineData l, false, false)

/-- Bytes of a run of lines. -/
def State.linesBytes (s : State) (first n : Nat) : List Byte :=
  (List.range n).flatMap (fun i => bytesOf 64 (s.lineData (first + i)).toNat)

/-- Frank of a run of lines as they stand (R73). -/
def State.linesFrank (s : State) (first n : Nat) : BitVec 32 := crc32c (s.linesBytes first n)

/-! ### Refresh (R342 to R345) -/

/-- A physical rank that counts for the refresh state: neither spare nor retired, and present. -/
def State.rankCounts (s : State) (c r : Nat) : Bool :=
  decide (r < (if s.mem.dpc2 then 4 else 2)) && !(s.rank c r).retired && s.spareOf c != some r

/-- Refresh debt after a change of state (Table 15.4): a debt above 4 doubled sets is brought down to 4 at once. -/
def debtAfter (toDoubled : Bool) (d : Nat) : Nat := if toDoubled then min 4 (2 * d) else ceilDiv d 2

/-- The refresh state changes (R344). -/
def State.setDoubled (s : State) (b : Bool) : State :=
  if s.mem.doubled = b then s
  else { s with mem := { s.mem with doubled := b, ranks := s.mem.ranks.map (fun e => (e.1, { e.2 with debt := debtAfter b e.2.debt })) } }

/-- What a sensor counts as, in 0.25 °C: 83 °C where it fails to answer (R417). -/
def State.sensor (s : State) (i : Nat) : Int := if 3 ≤ tget 0 s.mem.misses i then 332 else tget 0 s.mem.temps i

/-- The refresh state decided from the ranks and sensors (R342). -/
def State.decideRefresh (s : State) : State :=
  let ranks := (List.range 16).filter (fun i => s.rankCounts (i / 4) (i % 4))
  let hot := (List.range 8).any (fun i => decide (332 ≤ s.sensor i))
  let cool := (List.range 8).all (fun i => decide (s.sensor i < 324))
  let since := if cool then some (s.mem.coolSince.getD s.now) else none
  let s := { s with mem := { s.mem with coolSince := since } }
  if hot || ranks.any (fun i => (s.rank (i / 4) (i % 4)).mr4Doubled) then s.setDoubled true
  else if ranks.all (fun i => decide (8 ≤ (s.rank (i / 4) (i % 4)).mr4Normal))
      && (match since with | some t => decide (t + 8 * tuPerMs ≤ s.now) | none => false) then s.setDoubled false
  else s

/-- Memory is TRAINED. -/
def State.trained (s : State) : Bool := s.mem.state == 2

/-- MR4_POLL: every rank's MR4, a bit set for the doubled rate, by channel * 4 + rank (R342). -/
def execMr4Poll (doubledRanks : BitVec 16) (s : State) : Host.Outcome State Fault Refusal :=
  if !s.trained then .next s
  else
    let s := s.periodic 0 (4 * tuPerTick)
    let s := (List.range 16).foldl (fun s i =>
      if s.rankCounts (i / 4) (i % 4) then
        let x := s.rank (i / 4) (i % 4)
        let d := doubledRanks.getLsbD i
        s.setRank (i / 4) (i % 4) { x with mr4Doubled := d, mr4Normal := if d then 0 else min 8 (x.mr4Normal + 1) }
      else s) s
    .next s.decideRefresh

/-- Detail of source 48 while some sensor gives no answer (R419). -/
def State.sidebandLost (s : State) : Option Nat :=
  ((List.range 8).find? (fun i => decide (3 ≤ tget 0 s.mem.misses i))).map (fun i => i / 2 + 2 ^ 8 * (i % 2))

/-- DIMM_SENSOR_READ: one answer per DIMM, channel * 2 + DIMM, in 0.25 °C; none where the sensor does not answer (R342, R417). -/
def execDimmSensorRead (temps : List (Option Int)) (s : State) : Host.Outcome State Fault Refusal :=
  if !s.trained then .next s
  else
    let s := s.periodic 1 (40 * tuPerTick)
    let s := s.recur 48 s.sidebandLost
    let s := ((List.range 8).zip temps).foldl (fun s (it : Nat × Option Int) =>
      let det := it.1 / 2 + 2 ^ 8 * (it.1 % 2)
      match it.2 with
      | some t =>
        let s := { s with mem := { s.mem with temps := tset 0 s.mem.temps it.1 t, misses := tset 0 s.mem.misses it.1 0 } }
        if 380 ≤ t then s.fault 46 det else s
      | none =>
        let n := min 3 (tget 0 s.mem.misses it.1 + 1)
        let s := { s with mem := { s.mem with misses := tset 0 s.mem.misses it.1 n } }
        if n = 3 then s.fault 48 det else s) s
    .next s.decideRefresh

/-- The refresh interval in force (R343). -/
def State.refreshInterval (s : State) : Nat := if s.mem.doubled then 1950 * tuPerNs else 3900 * tuPerNs

/-- REFRESH_DUE: once in each refresh interval a set falls due on a rank; it is postponed while the debt allows, else issued, closing the
rank's rows, with one owed set where any is owed (R343). -/
def execRefreshDue (c : Fin 4) (rank : Fin 4) (postpone : Bool) (s : State) : Host.Outcome State Fault Refusal :=
  if !s.trained then .next s
  else
    let s := s.periodic (96 + c.val * 4 + rank.val) s.refreshInterval
    let x := s.rank c.val rank.val
    if postpone && decide (x.debt < 4) then .next (s.setRank c.val rank.val { x with debt := x.debt + 1 })
    else
      let s := s.setRank c.val rank.val { x with debt := if postpone then x.debt else x.debt - 1 }
      .next { s with mem := { s.mem with banks := s.mem.banks.filter (fun e => e.1 / 64 != c.val * 4 + rank.val) } }

/-- BANK_IDLE_TIMEOUT: a bank idle for the time it took when it opened closes its row (R341). -/
def execBankIdleTimeout (c : Fin 4) (rank : Fin 4) (sub : Fin 2) (bank : Fin 32) (s : State) :
    Host.Outcome State Fault Refusal :=
  let key := bankKey c.val rank.val sub.val bank.val
  let b := tget (0, 0, 0) s.mem.banks key
  if b = (0, 0, 0) then .next s
  else
    let s := s.advance (b.2.1 + b.2.2 * tuPerNs)
    .next { s with mem := { s.mem with banks := terase s.mem.banks key } }

/-! ### Tracking, failed lanes (R340, R349) -/

/-- DRIFT_TRACKING_VISIT: every 16 ticks; a lane whose eye fell below 0.15 UI begins a recentre (R340). -/
def execDriftTrackingVisit (c : Fin 4) (rank : Fin 4) (weakLane : Bool) (s : State) : Host.Outcome State Fault Refusal :=
  if !s.trained || (s.rank c.val rank.val).retired then .next s
  else
    let s := s.periodic (16 + c.val * 4 + rank.val) (16 * tuPerTick)
    if weakLane && !((c.val, rank.val) ∈ s.mem.recentre) then
      .next { s with mem := { s.mem with recentre := s.mem.recentre ++ [(c.val, rank.val)] } }
    else .next s

/-- A lane of a rank is declared failed (R349): within one device the device is erased, across devices the rank goes read only
and to the head of the queue. A rank that is a migration's spare abandons the migration (R357). -/
def State.failedLane (s : State) (c r sub d : Nat) (multi : Bool) : State :=
  let s := s.fault 43 (c + 2 ^ 8 * r + 2 ^ 16 * sub + 2 ^ 24 * d)
  if s.isTarget c r then s.abandonMigration
  else
    let x := s.rank c r
    let second := x.erased.any (fun e => e.1 == sub && e.2 != d)
    if multi || second then
      let s := s.setRank c r { x with readOnly := true }
      if s.spareOf c = some r then s else s.queueMigration c r true
    else
      let s := s.setRank c r { x with erased := if (sub, d) ∈ x.erased then x.erased else x.erased ++ [(sub, d)] }
      if s.spareOf c = some r then s else s.queueMigration c r false

/-- RECENTRE_COMPLETE: a recentre takes a setting of at least 0.25 UI, or declares the lane failed (R340, R349). -/
def execRecentreComplete (c : Fin 4) (rank : Fin 4) (sub : Fin 2) (device : Fin 10) (found multi : Bool) (s : State) :
    Host.Outcome State Fault Refusal :=
  if !s.trained || !((c.val, rank.val) ∈ s.mem.recentre) then .next s
  else
    let s := { s with mem := { s.mem with recentre := s.mem.recentre.erase (c.val, rank.val) } }
    if found then .next s else .next (s.failedLane c.val rank.val sub.val device.val multi)

/-! ### Scrub and migration (R348, R354 to R357) -/

/-- PATROL_SCRUB: one active line is read, and corrected data written back (R348); it pauses during a migration. -/
def execPatrolScrub (line : Nat) (errs : Errors) (s : State) : Host.Outcome State Fault Refusal :=
  if !s.trained || !(s.reg aMcCtrl).testBit 0 || s.mem.migration.isSome || decide (s.mem.capacity ≤ line) then .next s
  else
    .next (s.memRead line errs).1

/-- The first queued migration whose channel has a spare (R354, R356). -/
def State.nextMigration (s : State) : Option (Nat × Nat) := s.mem.queue.find? (fun q => (s.spareOf q.1).isSome)

/-- MIGRATION_START: where none runs, the first queued migration that has a spare begins (R354, R355). -/
def execMigrationStart (s : State) : Host.Outcome State Fault Refusal :=
  match s.mem.migration, s.nextMigration with
  | none, some (c, r) =>
    match s.spareOf c with
    | some sp =>
      let s := { s with mem := { s.mem with queue := s.mem.queue.erase (c, r),
                                            migration := some { chan := c, source := r, spare := sp, progress := 0, bad := [] } } }
      .next (s.memEvent c r 0)
    | none => .next s
  | _, _ => .next s

/-- The logical rank that a physical rank of a channel holds. -/
def State.logicalOf (s : State) (c r : Nat) : Option Nat := (List.range 4).find? (fun k => s.physOf c k == r)

/-- Line address of line `i` of a migration's source (R336). -/
def State.migLine (s : State) (m : Migration) : Nat := (s.logicalOf m.chan m.source).getD 0 * s.rankSlice + 4 * m.progress + m.chan

/-- MIGRATION_LINE_COPY: one line is read through the decoder and written to the spare, corrected or poisoned (R355). -/
def execMigrationLineCopy (errs : Errors) (s : State) : Host.Outcome State Fault Refusal :=
  match s.mem.migration with
  | none => .next s
  | some m =>
    if s.rankSlice / 4 ≤ m.progress then .next s
    else
      let l := s.migLine m
      let s := s.touchBank l
      let bump := fun (s : State) (bad : List Nat) =>
        { s with mem := { s.mem with migration := some { m with progress := m.progress + 1, bad := bad ++ m.bad } } }
      if s.isPoisoned l then .next (bump s [])
      else
        match s.decodeLine l errs with
        | .clean => .next (bump s [])
        | .corrected d => .next (bump (s.corrected l d false) [])
        | .correctedWide d => .next (bump (s.corrected l d true) [])
        | .uncorrectable =>
          let s := (s.rcAdd (aMcUncorr m.chan) 1).fault 42 (m.chan + 2 ^ 8 * m.source)
          .next ((bump s [l]).poison l)

/-- MIGRATION_COMPLETE: the last line copied, the spare takes the source's logical rank and the emptied rank is retrained with its
erasures cleared (R356). -/
def execMigrationComplete (s : State) : Host.Outcome State Fault Refusal :=
  match s.mem.migration with
  | none => .next s
  | some m =>
    if m.progress < s.rankSlice / 4 then .next s
    else
      let k := (s.logicalOf m.chan m.source).getD 0
      let s := { s with mem := { s.mem with
        migration := none, rankMap := tset k s.mem.rankMap (m.chan * 4 + k) m.spare, spare := tset none s.mem.spare m.chan none } }
      let s := s.setRank m.chan m.source { Rank.reset with retraining := true }
      .next (s.memEvent m.chan m.source 1)

/-- RANK_RETRAIN_COMPLETE: an emptied rank becomes the spare, or is retired and the channel has none (R356). -/
def execRankRetrainComplete (c : Fin 4) (rank : Fin 4) (pass : Bool) (s : State) : Host.Outcome State Fault Refusal :=
  let x := s.rank c.val rank.val
  if !x.retraining then .next s
  else if pass then
    let s := s.setRank c.val rank.val { x with retraining := false }
    .next { s with mem := { s.mem with spare := tset none s.mem.spare c.val (some rank.val) } }
  else .next ((s.setRank c.val rank.val { x with retraining := false, retired := true }).fault 44 c.val)

/-- MC_CMD.MIGRATE: a host request; one that names a spare, a retired rank or a channel with no spare is ignored (R354). -/
def execMcCmdMigrate (c : Fin 4) (rank : Fin 4) (s : State) : Host.Outcome State Fault Refusal :=
  if !s.trained || !s.rankCounts c.val rank.val || (s.rank c.val rank.val).retraining || (s.spareOf c.val).isNone then .next s
  else .next (s.queueMigration c.val rank.val false)

/-- MC_CMD.CLEAR_COUNTERS (R359). -/
def execMcCmdClearCounters (s : State) : Host.Outcome State Fault Refusal :=
  .next { s with mem := { s.mem with poisonCount := 0, poisonLog := [] } }

end Sys2Proof.Machine
end

