-- ==== Sys2Proof/Machine/Staging.lean ====
section
/-! DEFINITION. The STAGING class but for ABANDON: STAGE_WRITE, STAGE_READ, CHECK, SEAL and the digest of the committed set (R105,
R171 to R178, R188, R249). Each takes its effect at dispatch and completes at STAGING_COMPLETE. -/

namespace Sys2Proof.Machine

/-! ### The committed-set digest (R188) -/

/-- The used fields of an item, as low bit and width: every other bit is reserved and enters the digest as zero. -/
def usedFields (kind idx v : Nat) : List (Nat × Nat) :=
  match kind with
  | 1 => [(0, 196)]
  | 2 => (List.range 16).map (fun e => (32 * e, 19))
  | 3 => [(0, 40)]
  | 4 => [(0, 132), (136, 40), (192, 7), (200, 5), (208, 13), (224, 72), (320, 128)]
  | 5 => [(0, 8)]
  | 6 => if idx < 32 then [(0, 12), (16, 9)] else if idx < 160 then [(1, 6), (11, 1)] else [(10, 1)]
  | 7 => [(0, 134), (136, 33), (176, 32)]
  | 8 => [(0, 17), (24, 8)] ++ (List.range (fld v 0 16)).flatMap (fun i => [(64 * i + 64, 42), (64 * i + 112, 16)])
  | 9 => [(0, 19), (32, 19), (64, 51), (128, 24), (192, 68), (264, 8), (288, 64)]
  | 10 => [(0, 3), (4, 12), (32, 64)]
  | 11 => if idx = 0 then [(0, 360), (384, 80)] else [(0, 2), (7, 8), (16, 7), (32, 64)]
  | _ => []

/-- An item with its reserved bits taken as zero. -/
def usedPart (kind idx v : Nat) : Nat :=
  (usedFields kind idx v).foldl (fun a f => a + fld v f.1 f.2 * 2 ^ f.1) 0

/-- The digest of a configuration. -/
def digestOf (cv : Tab Nat) : BitVec 256 :=
  sha256Num ((List.range 11).flatMap (fun k =>
    (List.range (kindRange (k + 1))).flatMap (fun i =>
      let v := itemOf cv (k + 1) i
      bytesOf (itemSize (k + 1) i v) (usedPart (k + 1) i v))))

/-- The set whose digest and sequence number the device reports: while a commit is partly applied, the set before it. -/
def State.digestSet (s : State) : Tab Nat :=
  match s.cfg.pending with
  | some p => if p.anyApplied then p.old else s.cfg.committed
  | none => s.cfg.committed

def State.digest (s : State) : BitVec 256 := digestOf s.digestSet

/-- COMMIT_SEQ and the first 8 bytes of the digest, as COMMIT's and SEAL's results give them. -/
def State.digestHead (s : State) : Nat := s.digest.toNat % 2 ^ 64

/-! ### STAGE_WRITE (R171, R172) -/

/-- The items a STAGE_WRITE carries, with the bytes they take: a PE script's size follows its COUNT (Table 8.1). -/
def readItems (host : List Host.Cell) (kind : Nat) : Nat → Nat → Nat → List (Nat × Nat) × Nat
  | 0, _, _ => ([], 0)
  | n + 1, idx, addr =>
    let size := itemSize kind idx (readLE host addr 8)
    let (rest, b) := readItems host kind n (idx + 1) (addr + size)
    ((itemKey kind idx, readLE host addr size) :: rest, size + b)

/-- A draft with items written: a later write replaces the earlier one. -/
def putItems (d items : List (Nat × Nat)) : List (Nat × Nat) := items.foldl (fun d kv => tput (terase d kv.1) kv.1 kv.2) d

/-- Bytes of draft storage that a draft takes. -/
def draftBytes (d : List (Nat × Nat)) : Nat := (d.map (fun kv => itemSize (kv.1 / 65536) (kv.1 % 65536) kv.2)).sum

/-- Draft storage, 8 MB (R171). -/
def draftStorage : Nat := 8388608

/-- Bytes that every draft takes together, with one of them replaced. -/
def State.storageWith (s : State) (rs : Nat) (d : List (Nat × Nat)) : Nat :=
  ((s.cfg.drafts.filter (fun e => e.1 != rs)).map (fun e => draftBytes e.2)).sum + draftBytes d

/-- A draft whose COMMIT is pending. -/
def State.draftHeld (s : State) (rs : Nat) : Bool := match s.cfg.pending with | some p => p.rs == rs | none => false

/-- STAGE_WRITE at its engine. -/
def engineStageWrite (kind count index addr bytes : Nat) (t : Task) (s : State) : State :=
  let rs := t.hdr.rs.val
  let (items, size) := readItems s.host kind count index addr
  if size ≠ bytes then s.setOutcome t.id 3 0
  else
    let d := putItems (s.draft rs) items
    let new := overlay s.cfg.committed (d.filter (fun kv => kv.1 / 65536 != 12))
    if s.draftHeld rs || !items.all (s.mayStage new rs) then s.setOutcome t.id 4 0
    else if draftStorage < s.storageWith rs d then s.setOutcome t.id 5 0
    else
      let s := { s with cfg := { s.cfg with drafts := tset [] s.cfg.drafts rs d } }
      s.setOutcome t.id 0 (count + 2 ^ 32 * (draftStorage - s.storageWith rs d))

/-- STAGE_WRITE. -/
def execStageWrite (h : Hdr) (kind count index addr bytes : Nat) (s : State) : Host.Outcome State Fault Refusal :=
  .next (serve h (.stageWrite kind count index addr bytes) (engineStageWrite kind count index addr bytes) s)

/-! ### STAGE_READ (R173, R249) -/

/-- What FIRST_FAIL reads where nothing failed. -/
def noFail : Nat := 2 ^ 52 - 1

/-- Elements of a result-space section, with their size in bytes (Table 11.9). -/
def State.section (s : State) (k sect : Nat) : List Nat × Nat :=
  let x := s.site k
  match sect with
  | 0 => ([x.failCount + 2 ^ 32 * x.overflow + 2 ^ 64 * x.firstFail.getD noFail + 2 ^ 128 * x.log.length
      + 2 ^ 192 * ofSigned 32 (if siteOn s.cfg.committed k mST then trackT x.track else 0) + 2 ^ 224 * x.track.count + 2 ^ 256 * x.track.limit
      + 2 ^ 288 * b2n x.track.lock + 2 ^ 320 * (x.vec % 2 ^ 64)], 64)
  | 1 => (x.log.map (·.toNat), 32)
  | 2 => ((s.siteChans k).map (fun c =>
      let y := s.chan c
      let sb := chanOn s.cfg.committed k c mSB
      y.failCount + 2 ^ 32 * y.invalid + 2 ^ 64 * y.firstFail.getD noFail
        + (if sb then 2 ^ 128 * y.alignStatus + 2 ^ 136 * slipOf s.cfg.committed y c else 0)
        + 2 ^ 160 * y.esCompared + 2 ^ 192 * y.esMismatch + 2 ^ 224 * y.pmDead + 2 ^ 256 * y.pmDrop), 48)
  | _ => ((s.siteSlots k).map (fun i => (s.slot i).latched.toNat + 2 ^ 512 * s.liveSummary k i x.vec), 128)

/-- Write equal-sized elements in a row; the bytes written. -/
def State.writeElems (s : State) (addr size : Nat) : List Nat → State
  | [] => s
  | v :: vs => State.writeElems (s.hostWrite addr size v) (addr + size) size vs

/-- Write items one after another. -/
def State.writeItems (s : State) (addr : Nat) : List (Nat × Nat) → State
  | [] => s
  | (size, v) :: vs => State.writeItems (s.hostWrite addr size v) (addr + size) vs

/-- Take the snapshot of a result-space read as the site stands, into the buffer and the outcome. -/
def State.snapshot (s : State) (id k sect index count addr : Nat) : State :=
  let (es, size) := s.section k sect
  let es := (es.drop index).take count
  (s.writeElems addr size es).setOutcome id 0 (es.length * size + 2 ^ 64 * ((s.site k).vec % 2 ^ 64))

/-- The site has a vector boundary to come. -/
def hasBoundary (x : Site) : Bool := x.st == .run || x.st == .hold

/-- A site's channels brought up to now, so that its result space stands as it should. -/
def State.catchUp (s : State) (k : Nat) : State :=
  let x := s.site k
  let s := s.settleSite k (if hasBoundary x then x.acc else farTime)
  (s.siteChans k).foldl (fun s c => s.settleStamps k c) s

/-- STAGE_READ at its engine. A result-space read of a site that has a boundary to come, its first where it is ARMED, takes its
snapshot afresh there; one whose site reaches none keeps the snapshot of the dispatch (R249). The committed value of a ring resize,
which is no part of the committed set, reads as zero (DESIGN CHOICE, notes/assumptions/73.md). -/
def engineStageRead (form kind sect index count bytes addr : Nat) (t : Task) (s : State) : State :=
  if form = 2 then
    let size := (s.section kind sect).2
    if bytes < count * size then s.setOutcome t.id 5 0
    else
      let s := s.catchUp kind
      let s := if hasBoundary (s.site kind) || (s.site kind).st == .armed then s.modTask t.id (fun u => { u with due := 1 }) else s
      s.snapshot t.id kind sect index count addr
  else
    let draft := s.draft t.hdr.rs.val
    let items := (List.range count).map (fun i =>
      let v := match (if form = 0 then draft.find? (fun kv => kv.1 == itemKey kind (index + i)) else none) with
        | some kv => kv.2
        | none => s.item kind (index + i)
      (itemSize kind (index + i) v, v))
    let total := (items.map (·.1)).sum
    if bytes < total then s.setOutcome t.id 5 0 else (s.writeItems addr items).setOutcome t.id 0 total

/-- STAGE_READ. -/
def execStageRead (h : Hdr) (form kind sect index count bytes addr : Nat) (s : State) : Host.Outcome State Fault Refusal :=
  .next (serve h (.stageRead form kind sect index count bytes addr) (engineStageRead form kind sect index count bytes addr) s)

/-- A vector boundary of a site: the result-space reads that await it take their snapshot (R249). -/
def State.snapshots (s : State) (k : Nat) : State :=
  s.so.tasks.foldl (fun s t =>
    match t.op with
    | .stageRead 2 kind sect index count _ addr =>
      if t.st == .inService && kind == k && t.due == 1 then
        (s.modTask t.id (fun u => { u with due := 0 })).snapshot t.id k sect index count addr
      else s
    | _ => s) s

/-! ### CHECK (R176, R178) -/

/-- CHECK at its engine. -/
def engineCheck (budget addr entries : Nat) (t : Task) (s : State) : State :=
  let rs := t.hdr.rs.val
  let vs := s.violations rs budget
  let r := s.checkResult rs budget (if addr = 0 then none else some entries)
  let s := if addr = 0 then s else s.writeElems addr 16 ((vs.take entries).map violBytes)
  s.setOutcome t.id (if vs.isEmpty then 0 else 2) r

/-- CHECK. -/
def execCheck (h : Hdr) (budget addr entries : Nat) (s : State) : Host.Outcome State Fault Refusal :=
  .next (serve h (.check budget addr entries) (engineCheck budget addr entries) s)

/-! ### SEAL (R105) -/

/-- The lines a segment of a configuration takes: V is that of the lowest-numbered site that reaches it, 1 where none does
(DEDUCED, notes/assumptions/20.md). -/
def sealLines (cv : Tab Nat) (i : Nat) : Nat :=
  let e := cvSeg cv i
  match (List.range 32).find? (fun k => decide (i ∈ reachable cv k)) with
  | some k => segLines cv (leadOf cv k) e
  | none => segLength e

/-- An entry with the frank of its lines as they stand. -/
def State.sealed (s : State) (cv : Tab Nat) (i e : Nat) : Nat :=
  putFld e 176 32 (s.linesFrank (segLine e) (sealLines cv i)).toNat

/-- The lines of an entry lie in trained memory. -/
def State.canSeal (s : State) (cv : Tab Nat) (i : Nat) : Bool :=
  s.trained && decide (segLine (cvSeg cv i) + sealLines cv i ≤ s.mem.capacity)

/-- Items with each Segment Table entry of a range sealed. -/
def State.sealItems (s : State) (cv : Tab Nat) (first n : Nat) (items : List (Nat × Nat)) : List (Nat × Nat) :=
  items.map (fun kv =>
    if itemKey 7 first ≤ kv.1 ∧ kv.1 < itemKey 7 (first + n) then (kv.1, s.sealed cv (kv.1 % 65536) kv.2) else kv)

/-- A configuration with a range of entries sealed. -/
def State.sealSet (s : State) (cv : Tab Nat) (first n : Nat) : Tab Nat :=
  (List.range n).foldl (fun t j => setItem t 7 (first + j) (s.sealed cv (first + j) (cvSeg cv (first + j)))) cv

/-- SEAL at its engine: a VF seals entries of its own lines only (R237). The franks go into the committed table and into the draft, and into the pending commit of the draft. -/
def engineSeal (first countM1 : Nat) (t : Task) (s : State) : State :=
  let rs := t.hdr.rs.val
  let n := countM1 + 1
  let cv := s.cfg.committed
  let cand := s.candidate rs
  let own := fun c j => s.holdsLines t.fn (segLine (cvSeg c (first + j))) (sealLines c (first + j))
  if !(List.range n).all (fun j => own cv j && own cand j) then s.setOutcome t.id 4 0
  else if !(List.range n).all (fun j => s.canSeal cv (first + j) && s.canSeal cand (first + j)) then s.setOutcome t.id 5 0
  else
    let pending := match s.cfg.pending with
      | some p => some { p with
          items := if p.rs = rs then s.sealItems cand first n p.items else p.items
          old := if p.anyApplied then s.sealSet p.old first n else p.old }
      | none => none
    let s' := { s with cfg := { s.cfg with
      committed := s.sealSet cv first n
      drafts := tset [] s.cfg.drafts rs (s.sealItems cand first n (s.draft rs))
      pending := pending
      commitSeq := (s.cfg.commitSeq + 1) % 2 ^ 32 } }
    s'.setOutcome t.id 0 (n + 2 ^ 32 * s'.cfg.commitSeq + 2 ^ 64 * s'.digestHead)

/-- SEAL. -/
def execSeal (h : Hdr) (first countM1 : Nat) (s : State) : Host.Outcome State Fault Refusal :=
  .next (serve h (.seal first countM1) (engineSeal first countM1) s)

/-! ### STAGING_COMPLETE -/

/-- STAGING_COMPLETE: a task of the STAGING class whose outcome is formed ends (R250). -/
def execStagingComplete (task : Nat) (s : State) : Host.Outcome State Fault Refusal :=
  match s.task task with
  | some t =>
    match t.outcome with
    | some (st, r) => if opClass t.op = 1 then .next (s.complete t st r) else .next s
    | none => .next s
  | none => .next s

end Sys2Proof.Machine
end

