-- ==== Sys2Proof/Machine/Block.lean ====
section
/-! DEFINITION. What goes over a lane of a Courier link: 66-bit blocks, their sync headers and scrambler, the control blocks with their
check, the test patterns and the matching of rates (R275 to R279, R292, R296, R303). -/

namespace Sys2Proof.Machine

/-! ### Blocks (R275) -/

/-- A block before scrambling: control or data, and its 64 bits of content. -/
structure Block where
  control : Bool
  content : Nat
  deriving DecidableEq, Repr

/-- The sync header of a block. -/
def syncHeader (control : Bool) : Nat := if control then 0b10 else 0b01

/-- 0b00 and 0b11 are no sync headers. -/
def headerValid (h : Nat) : Bool := h == 0b01 || h == 0b10

/-- Scrambling of `n` bits by 1 + x^39 + x^58, least significant first: the register holds the last 58 bits sent, the latest at bit 0
(R275; the bit order is PRESUMED from 64b/66b coding, notes/assumptions/84.md). -/
def scramble : Nat → Nat → Nat → Nat × Nat
  | 0, st, _ => (st, 0)
  | n + 1, st, x =>
    let b := b2n (x.testBit 0 ^^ st.testBit 38 ^^ st.testBit 57)
    let (st', y) := scramble n ((2 * st + b) % 2 ^ 58) (x / 2)
    (st', b + 2 * y)

/-- The receiver's half: the register holds the last 58 bits received. -/
def descramble : Nat → Nat → Nat → Nat × Nat
  | 0, st, _ => (st, 0)
  | n + 1, st, y =>
    let b := b2n (y.testBit 0 ^^ st.testBit 38 ^^ st.testBit 57)
    let (st', x) := descramble n ((2 * st + y % 2) % 2 ^ 58) (y / 2)
    (st', b + 2 * x)

/-- A block as the 66-bit word that its lane sends, and the lane's scrambler after it. -/
def wireWord (st : Nat) (b : Block) : Nat × Nat :=
  let (st', y) := scramble 64 st b.content
  (st', syncHeader b.control + 4 * y)

/-! ### Control blocks (Table 13.2, R277, R278) -/

/-- One byte into the CRC-8 of polynomial 0x07. -/
def crc8Byte (c b : Nat) : Nat :=
  (List.range 8).foldl (fun c _ => if c.testBit 7 then (2 * c % 256) ^^^ 0x07 else 2 * c) (c ^^^ b)

/-- CRC-8 with initial value 0x00. -/
def crc8 (bs : List Byte) : Nat := bs.foldl (fun c b => crc8Byte c b.toNat) 0

/-- The check of a control block, over bytes 1 to 6. -/
def ctlCheck (v : Nat) : Nat := crc8 (bytesOf 6 (v / 256))

/-- A control block's content with its check as the last byte. -/
def sealCtl (v : Nat) : Nat := v % 2 ^ 56 + 2 ^ 56 * ctlCheck v

/-- A received control block whose check holds. -/
def ctlGood (v : Nat) : Bool := v / 2 ^ 56 % 256 == ctlCheck v

def idleBlock : Block := ⟨true, 0x1E⟩
def skipBlock : Block := ⟨true, 0x2D⟩
def preemptBlock : Block := ⟨true, sealCtl 0x66⟩

/-- A TRAIN block; the places of its fields are the model's own (notes/assumptions/84.md). -/
def trainBlock (lane port seq : Nat) : Block := ⟨true, sealCtl (0x33 + 2 ^ 8 * (lane % 4) + 2 ^ 12 * (port % 4) + 2 ^ 16 * (seq % 2 ^ 16))⟩

/-- A LINK_CTL block's content before its check (Table 13.11). -/
def linkCtlContent (subtype arg16 arg8 : Nat) : Nat :=
  0x55 + 2 ^ 8 * (subtype % 256) + 2 ^ 16 * (arg16 % 65536) + 2 ^ 32 * (arg8 % 256)

def linkCtlBlock (subtype arg16 arg8 : Nat) : Block := ⟨true, sealCtl (linkCtlContent subtype arg16 arg8)⟩

/-- What a receiver makes of a LINK_CTL block: its subtype and arguments; a block whose check fails or whose subtype is reserved is
ignored. -/
def readLinkCtl (v : Nat) : Option (Nat × Nat × Nat) :=
  let sub := fld v 8 8
  if fld v 0 8 = 0x55 ∧ ctlGood v ∧ 1 ≤ sub ∧ sub ≤ 5 then some (sub, fld v 16 16, fld v 32 8) else none

/-- A LINK_CTL block with these fields and this CHECK byte is taken. -/
def ctlTaken (subtype arg16 arg8 : Nat) (check : Byte) : Bool :=
  (readLinkCtl (linkCtlContent subtype arg16 arg8 + 2 ^ 56 * check.toNat)).isSome

/-- A MARKER block: lane number, active-lane mask, marker count, FRAME_OFFSET and the fixed polarity pattern; the places of the
fields are the model's own (notes/assumptions/84.md). -/
def markerBlock (lane mask count offset : Nat) : Block :=
  ⟨true, sealCtl (0x4B + 2 ^ 8 * (lane % 4) + 2 ^ 12 * (mask % 16) + 2 ^ 16 * (count % 65536) + 2 ^ 32 * (offset % 32)
    + 2 ^ 40 * Config.markerPattern.toNat)⟩

/-- A content is a MARKER whose check holds. -/
def isMarker (v : Nat) : Bool := fld v 0 8 == 0x4B && ctlGood v

def markerLane (v : Nat) : Nat := fld v 8 2
def markerMask (v : Nat) : Nat := fld v 12 4
def markerOffset (v : Nat) : Nat := fld v 32 5

/-- The content as a lane with the other polarity shows it. -/
def invertContent (v : Nat) : Nat := 2 ^ 64 - 1 - v % 2 ^ 64

/-- The 32 data blocks of a frame: block k holds bytes 8k to 8k + 7 (R279). -/
def frameBlocks (f : Nat) : List Block := (List.range 32).map (fun k => ⟨false, fld f (64 * k) 64⟩)

/-! ### Lane numbers (R292) -/

/-- The transmit lane that a receive lane carries in a mapping. -/
def mapLane (reversed : Bool) (lane : Nat) : Nat := if reversed then 3 - lane else lane

/-- A mask of transmit lanes as receive lanes in a mapping. -/
def mapMask (reversed : Bool) (m : BitVec 4) : BitVec 4 := BitVec.ofNat 4 (maskOf 4 (fun l => m.getLsbD (mapLane reversed l)))

/-- How many lanes of a mask show the number that a mapping gives them. -/
def mappingFits (numbers : Tab (Option Nat)) (m : BitVec 4) (reversed : Bool) : Nat :=
  (List.range 4).countP (fun l => m.getLsbD l && tget none numbers l == some (mapLane reversed l))

/-- The mapping that the most lanes fit: in order, where as many fit either (DESIGN CHOICE, notes/assumptions/85.md). -/
def chooseReversed (numbers : Tab (Option Nat)) (m : BitVec 4) : Bool :=
  decide (mappingFits numbers m false < mappingFits numbers m true)

/-- The lanes of a mask that fit the chosen mapping. -/
def fittingLanes (numbers : Tab (Option Nat)) (m : BitVec 4) : BitVec 4 :=
  let r := chooseReversed numbers m
  BitVec.ofNat 4 (maskOf 4 (fun l => m.getLsbD l && tget none numbers l == some (mapLane r l)))

/-! ### Test patterns (R303) -/

/-- Length and tap of the pseudo-random sequences of COU_TEST.PATTERN, and whether ITU-T O.150 inverts it (PRESUMED,
notes/assumptions/84.md). -/
def prbsOf (pattern : Nat) : Option (Nat × Nat × Bool) :=
  match pattern with
  | 0 => some (7, 6, false)
  | 1 => some (15, 14, true)
  | 2 => some (23, 18, true)
  | 3 => some (31, 28, true)
  | _ => none

/-- The shift register after `n` bits: the latest bit at bit 0. -/
def prbsAfter (len tap : Nat) : Nat → Nat → Nat
  | 0, st => st
  | n + 1, st => prbsAfter len tap n ((2 * st + b2n (st.testBit (len - 1) ^^ st.testBit (tap - 1))) % 2 ^ len)

/-- Bit `n` that a generator sends, started from ones; pattern 4 is the 64-bit user pattern, repeated. -/
def patternBit (pattern user n : Nat) : Bool :=
  match prbsOf pattern with
  | some (len, tap, inv) => (prbsAfter len tap (n + 1) (2 ^ len - 1)).testBit 0 ^^ inv
  | none => user.testBit (n % 64)

/-- The raw 66-bit word number `k` of a generator. -/
def patternWord (pattern user k : Nat) : Nat := maskOf 66 (fun i => patternBit pattern user (66 * k + i))

/-- A checker locks after this many error-free bits. -/
def checkerLockBits : Nat := 64

/-- What a checker makes of every `n`-th bit inverted between two times, when it began to seek its lock at `from_`: the errors it counts,
and since when it has seen none before its lock (R303, R381). -/
def injectedErrors (bit n from_ t u : Nat) : Nat × Nat :=
  let k := u / bit / n - t / bit / n
  let first := (t / bit / n + 1) * n * bit
  if k = 0 ∨ from_ + checkerLockBits * bit ≤ first then (k, from_)
  else if checkerLockBits < n then (k - 1, first)
  else (0, u / bit / n * n * bit)

/-- Time of a bit of a lane at 32 Gb/s, in TU (R275). -/
def bitTime : Nat := 250

/-- Time of a block of 66 bits. -/
def blockTime : Nat := 66 * bitTime

/-- Blocks from a marker to the next (R276). -/
def markerSpacing : Nat := 1024

/-- Test paths of a port (Table 13.8). -/
inductive TestPath where
  | main
  | nearSerial
  | nearParallel
  | farEnd
  | serveFar
  deriving DecidableEq, Repr

def testPath (loop : Nat) : TestPath :=
  match loop with
  | 0 => .main
  | 1 => .nearSerial
  | 2 => .nearParallel
  | 3 => .farEnd
  | _ => .serveFar

/-- The port's own generator feeds its own checker inside the device. -/
def TestPath.inside : TestPath → Bool
  | .nearSerial => true
  | .nearParallel => true
  | _ => false

/-! ### Matching of rates (R296) -/

/-- What a receiver does with a SKIP on every lane in one stripe. -/
inductive SkipMove where
  | keep
  | delete
  | twice
  deriving DecidableEq, Repr

/-- The buffer's fill above its centre, in blocks, decides. -/
def skipMove (fill : Int) : SkipMove := if 0 < fill then .delete else if fill < 0 then .twice else .keep

/-- The stripes that a receiver reads out: SKIP stripes as moved, every other as it came. -/
def matchRate (m : SkipMove) (stripes : List (List Block)) : List (List Block) :=
  stripes.flatMap (fun st =>
    if st.all (· == skipBlock) then (match m with | .keep => [st] | .delete => [] | .twice => [st, st]) else [st])

end Sys2Proof.Machine
end

