-- ==== Sys2Proof/Machine/Pulse.lean ====
section
/-! DEFINITION. Trigger pulses (R204 to R207), PE scripts (R164, R168, R461) and the reach of fault reactions over groups and
sites (R19, R420, R421). -/

namespace Sys2Proof.Machine

/-! ### Trigger pulses -/

/-- A trigger route: MODE, ARG, WIDTH in TU, SITE_MASK, DELAY (Tables 9.3 and 9.4). -/
def State.route (s : State) (l : Nat) : Nat := s.item 10 l
def routeMode (r : Nat) : Nat := fld r 0 3
def routeArg (r : Nat) : Nat := fld r 4 4
def routeWidth (r : Nat) : Nat := fld r 8 8 * 32000
def routeSites (r : Nat) : Nat := fld r 32 32
def routeDelay (r : Nat) : Nat := fld r 64 32

/-- A pulse is caused on a line at time `t` under the route in force then (R204, R206). -/
def State.causePulse (s : State) (l t : Nat) : State :=
  let r := s.route l
  let p : Pulse := { start := t + routeDelay r, stop := t + routeDelay r + routeWidth r, route := r }
  { s with trg := { s.trg with waiting := tset [] s.trg.waiting l (tget [] s.trg.waiting l ++ [p]) } }

/-- The lines routed in a mode, whose route satisfies a test, are pulsed. -/
def State.causeWhere (s : State) (mode t : Nat) (test : Nat → Nat → Bool) : State :=
  (List.range 16).foldl (fun s l =>
    if routeMode (s.route l) == mode && test l (s.route l) then s.causePulse l t else s) s

/-- MODE 1: a pass of a site that pulses (R92). -/
def State.segmentPulse (s : State) (k mask t : Nat) : State :=
  s.causeWhere 1 t (fun l r => mask.testBit l && (routeSites r).testBit k)

/-- The earliest of the pulses that wait. -/
def firstPulse : List Pulse → Option Pulse
  | [] => none
  | p :: ps => match firstPulse ps with
    | some q => if q.start < p.start then some q else some p
    | none => some p

/-- A pulse may begin: none of its line ends before it does. -/
def mayBegin (a : Option Pulse) (p : Pulse) : Bool := match a with | some q => decide (p.start ≤ q.stop) | none => true

/-- TRIGGER_PULSE_START: the line's next pulse begins; where the line is asserted already, the line stays asserted until the later
end, and a pulse of the same route counts as merged (R206). One that begins where the earlier pulse ends follows it without a gap and
is none that merges (DEDUCED, notes/assumptions/36.md). -/
def execTriggerPulseStart (line : Fin 16) (s : State) : Host.Outcome State Fault Refusal :=
  let l := line.val
  let ps := tget [] s.trg.waiting l
  match firstPulse ps with
  | none => .next s
  | some p =>
    let a := tget none s.trg.active l
    if !mayBegin a p then .next s
    else
      let s := s.advance p.start
      let going := (tget [] s.trg.begun l).filter (fun q => decide (p.start < q.stop))
      let s := { s with trg := { s.trg with waiting := tset [] s.trg.waiting l (ps.erase p), begun := tset [] s.trg.begun l (p :: going) } }
      match a with
      | some q =>
        let s := if going.any (fun g => g.route == p.route) then (s.rcAdd (aTrgMerge l) 1).fault 81 l else s
        let q' : Pulse := { q with stop := max q.stop p.stop }
        .next { s with trg := { s.trg with active := tset none s.trg.active l (some q') } }
      | none =>
        let s := { s with trg := { s.trg with active := tset none s.trg.active l (some p) } }
        .next (s.emit (.line l true p.start))

/-- TRIGGER_PULSE_END: the line deasserts, once every pulse that begins no later than the end has begun (R204, R206). -/
def execTriggerPulseEnd (line : Fin 16) (s : State) : Host.Outcome State Fault Refusal :=
  let l := line.val
  match tget none s.trg.active l with
  | none => .next s
  | some p =>
    if (tget [] s.trg.waiting l).any (fun q => decide (q.start ≤ p.stop)) then .next s
    else
      let s := s.advance p.stop
      .next ({ s with trg := { s.trg with active := tset none s.trg.active l none, begun := tset [] s.trg.begun l [] } }.emit (.line l false p.stop))

/-! ### PE scripts -/

/-- A script of a group: its item and its COUNT (Table 8.4). -/
def State.script (s : State) (g slot : Nat) : Nat := s.item 8 (4 * g + slot)
def scriptCount (v : Nat) : Nat := fld v 0 16
def scriptDiv (v : Nat) : Nat := fld v 24 8
def scriptMode3 (v : Nat) : Bool := v.testBit 16

/-- The transfers of a script, a level parameter taking the place of DATA [15:0] where SUBST is set; none leaves DATA as it is
(Table 8.4). -/
def scriptTransfers (v : Nat) (param : Option Nat) : List Transfer :=
  (List.range (scriptCount v)).map (fun k =>
    let w := fld v (64 * k + 64) 64
    let data := fld w 0 32
    { data := match param with
        | some p => if w.testBit 40 then data / 2 ^ 16 * 2 ^ 16 + p % 2 ^ 16 else data
        | none => data
      bits := fld w 32 8, keepCs := w.testBit 41, gap := fld w 48 16 })

/-- Half an SCLK period in TU: CLK_DIV + 1 periods of 500 MHz. -/
def sclkHalf (clkDiv : Nat) : Nat := (clkDiv + 1) * 16000

/-- How long a transfer takes in TU: a period before its first SCLK edge, its edges, a period after its last one (R487). -/
def transferTime (clkDiv : Nat) (x : Transfer) : Nat := (2 * x.bits + 3) * sclkHalf clkDiv

/-- When each transfer of a script finishes, from a start time; the idle time of a transfer lies before the next one. -/
def transferEnds (clkDiv : Nat) : Nat → List Transfer → List Nat
  | _, [] => []
  | t, x :: xs =>
    let e := t + transferTime clkDiv x
    e :: transferEnds clkDiv (e + x.gap * 80000) xs

/-- When the script in play on a port has played its last transfer. -/
def scriptEnd (x : Group) : Nat := (transferEnds x.peDiv x.peAt x.peTransfers).getLastD x.peAt

/-- Transfers finished by a moment (Table 21.8). -/
def transfersDone (x : Group) (now : Nat) : Nat := (transferEnds x.peDiv x.peAt x.peTransfers).countP (fun e => decide (e ≤ now))

/-- A group's port is in use. -/
def portHeld (x : Group) : Bool := x.peBusy || x.peCal

/-- A script is to play on a group's port; one of COUNT 0 plays nothing. A play that finds the port held waits (Table 7.8). -/
def State.wantScript (s : State) (g slot param : Nat) : State :=
  if scriptCount (s.script g slot) = 0 then s
  else
    let s := if portHeld (s.group g) then s.rcAdd (aPecWaits g) 1 else s
    s.modGroup g (fun x => { x with peQueue := x.peQueue ++ [(slot, param)] })

/-- Precedence of a claim by slot: playback at commit, sequencer events, level steps (Table 7.8). -/
def claimRank (slot : Nat) : Nat := if slot = 0 then 0 else if slot = 3 then 2 else 1

/-- The queued claim that takes the port next. -/
def nextClaim : List (Nat × Nat) → Option (Nat × Nat)
  | [] => none
  | q :: qs => match nextClaim qs with
    | some r => if claimRank r.1 < claimRank q.1 then some r else some q
    | none => some q

/-! ### Phases that want a group (R22, R363, R364) -/

/-- A site with a channel of the group is in one of some states. -/
def State.groupIn (s : State) (g : Nat) (p : SeqState → Bool) : Bool := (s.groupSites g).any (fun k => p (s.site k).st)

/-- The channels of the group are in use: RUN, HOLD, STARVED or DRAIN (Table 16.4). -/
def inUse (st : SeqState) : Bool := st == .run || st == .hold || st == .starved || st == .drain

/-- R22 lets a loopback phase begin on the group. -/
def State.r22 (s : State) (g : Nat) : Bool := !s.groupIn g (fun st => inUse st || st == .armed)

/-- Groups that a direct, loopback or fixture phase holds: four at most (R363). -/
def State.busyPhases (s : State) : Nat :=
  (List.range 16).countP (fun g => (s.group g).queue.any (fun p => p.started && !p.inPlace))

/-- The phase that is next on a group: the first that waits, or an internal phase where that one waits for R22. -/
def State.nextPhase (s : State) (g : Nat) : Option PhaseRun :=
  let x := s.group g
  if x.loopRun || x.queue.any (·.started) then none
  else
    match x.queue with
    | [] => none
    | p :: _ => if p.phase == 0 || s.r22 g then some p else x.queue.find? (fun q => q.phase == 0)

/-- A loopback or fixture phase that could begin claims the group's port before any script (Table 7.8). -/
def State.phaseClaims (s : State) (g : Nat) : Bool :=
  match s.nextPhase g with | some p => p.phase != 0 && decide (s.busyPhases < 4) | none => false

/-! ### Fault reactions on a site -/

/-- A park reaction covers the site, and a hold reaction does (R420). A site with no channel has no group. -/
def State.siteParked (s : State) (k : Nat) : Bool := (s.siteGroups k).any s.groupParked

def State.siteHeld (s : State) (k : Nat) : Bool := (s.siteGroups k).any (s.acts 3 3)

/-- When the reaction that must act on the site began: the latest boundary it allows lies 64 ns and one period later (R11). -/
def State.reactionDue (s : State) (k lo hi : Nat) : Option Nat :=
  (List.range 96).foldl (fun m n =>
    let x := s.src n
    let covers := x.active && decide (lo ≤ x.running) && decide (x.running ≤ hi)
      && (s.siteGroups k).any (fun g => match srcGroup n with | some h => h == g || x.running == 5 | none => true)
    if covers then some (match m with | some t => min t x.since | none => x.since) else m) none

end Sys2Proof.Machine
end

