-- ==== Sys2Proof/Machine/Link.lean ====
section
/-! DEFINITION. Courier frames as values, and the messages a device sends: which ports a message takes and the frame it waits as
(R280, Tables 13.3, 13.4 and 14.1). -/

namespace Sys2Proof.Machine

/-! ### Message codes: frame type * 256 + code (Tables 13.4, 13.6 and 14.1). The codes of COMMIT and of the two DATA types are the
model's own (notes/assumptions/28.md). -/

def msgFillerOn : Nat := 0x0102
def msgDiscover : Nat := 0x0201
def msgAnswer : Nat := 0x0202
def msgAssign : Nat := 0x0203
def msgAlready : Nat := 0x0204
def msgTable : Nat := 0x0205
def msgTSync : Nat := 0x0301
def msgTReq : Nat := 0x0302
def msgTResp : Nat := 0x0303
def msgSecond : Nat := 0x0401
def msgJoin : Nat := 0x0501
def msgLeave : Nat := 0x0502
def msgVerdict : Nat := 0x0503
def msgResult : Nat := 0x0504
def msgPrepare : Nat := 0x0601
def msgReady : Nat := 0x0602
def msgRefuse : Nat := 0x0603
def msgGo : Nat := 0x0604
def msgAbort : Nat := 0x0605
def msgConfirm : Nat := 0x0606
def msgPattern : Nat := 0x0701
def msgBoot : Nat := 0x0801

/-- A Branch's report that an image sent to it did not verify (R434). -/
def msgBootReport : Nat := 0x0802

/-- Destination of a message for every device below the sender. -/
def toAll : Nat := 1024

/-- Payload bytes that follow the message code. -/
def msgBytes (kind : Nat) : Nat :=
  match kind with
  | 0x0201 => 4
  | 0x0202 => 11
  | 0x0203 => 10
  | 0x0204 => 2
  | 0x0205 => 7
  | 0x0301 => 14
  | 0x0302 => 14
  | 0x0303 => 21
  | 0x0401 => 24
  | 0x0501 => 3
  | 0x0502 => 3
  | 0x0503 => 9
  | 0x0504 => 9
  | 0x0601 => 16
  | 0x0602 => 2
  | 0x0603 => 4
  | 0x0606 => 2
  | 0x0802 => 4
  | _ => 0

/-- Virtual channel of a frame type; none for a reserved type (Table 13.4). -/
def typeVc (ty : Nat) : Option Nat :=
  match ty with
  | 1 => some 2
  | 2 => some 2
  | 3 => some 0
  | 4 => some 0
  | 5 => some 1
  | 6 => some 1
  | 7 => some 3
  | 8 => some 3
  | _ => none

/-! ### Frames (Table 13.3) -/

def frType (f : Nat) : Nat := fld f 0 8
def frVc (f : Nat) : Nat := fld f 8 2
def frBcast (f : Nat) : Bool := f.testBit 10
def frAckValid (f : Nat) : Bool := f.testBit 11
def frNak (f : Nat) : Bool := f.testBit 12
def frDest (f : Nat) : Nat := fld f 16 10
def frSrc (f : Nat) : Nat := fld f 32 10
def frStamp (f : Nat) : Nat := fld f 48 16
def frHops (f : Nat) : Nat := fld f 72 8
def frAck (f : Nat) : Nat := fld f 80 16
def frCreditVc (f : Nat) : Nat := fld f 96 2
def frCredits (f : Nat) : Nat := fld f 104 8
def frCode (f : Nat) : Nat := fld f 128 8

/-- The frank over bytes 0 to 251 (R280). -/
def frFrank (f : Nat) : Nat := (crc32c (bytesOf 252 f)).toNat

/-- A frame with its frank set. -/
def sealFrame (f : Nat) : Nat := f % 2 ^ 2016 + 2 ^ 2016 * frFrank f

def frankGood (f : Nat) : Bool := fld f 2016 32 == frFrank f

/-- A frame as it waits: type, VC, destination, source, hops, payload. Its stamp and frank are set when it is sent. -/
def makeFrame (ty : Nat) (bcast : Bool) (dest src hops : Nat) (payload : List Byte) : Nat :=
  ty + 2 ^ 8 * ((typeVc ty).getD 3) + 2 ^ 10 * b2n bcast + 2 ^ 16 * (dest % 1024) + 2 ^ 32 * (src % 1024)
    + 2 ^ 64 * min payload.length 236 + 2 ^ 72 * hops + 2 ^ 128 * ofBytes (payload.take 236)

/-! ### Sending -/

/-- This device's id; a Postmaster's is 0 (R309). -/
def State.ownId (s : State) : Nat := s.tree.id.getD 0

/-- Device `a` lies above device `d` in the tree as this device knows it. -/
def isAbove (nodes : List Node) (a : Nat) : Nat → Nat → Bool
  | 0, _ => false
  | fuel + 1, d => match nodes.find? (fun n => n.id == d) with
    | some n => n.id != 0 && (n.parent == a || isAbove nodes a fuel n.parent)
    | none => false

/-- The virtual channel served next: the first with a frame and a credit (R282). -/
def nextVc (x : Port) : Option Nat :=
  (List.range 4).find? (fun vc => !(tget [] x.txq vc).isEmpty && decide (0 < tget 0 x.credits vc))

/-- A frame begins on an ACTIVE port where nothing is on its way; one of VC 0 or 1 is inserted in one of VC 2 or 3 (R281). New frames
wait while the replay buffer is full (R286). -/
def startNext (x : Port) (now : Nat) : Port :=
  if x.st != .active || decide (64 ≤ x.replay.length + x.begun.length) then x
  else
    match x.begun, nextVc x with
    | [], some v => { x with begun := [(v, now)] }
    | [m], some v => if 2 ≤ m.1 ∧ v < 2 then { x with begun := [(v, now), m] } else x
    | _, _ => x

/-- A frame joins the queue of its virtual channel on a port. -/
def State.queueFrame (s : State) (p f : Nat) : State :=
  s.modPort p (fun x => startNext { x with txq := tmod [] x.txq (frVc f) (· ++ [BitVec.ofNat 2048 f]) } s.now)

/-- The ports that lead to tree children. -/
def State.childPorts (s : State) : List Nat := (List.range 4).filter (fun p => (s.port p).child.isSome)

/-- The ports a message for a destination takes: every child's for `toAll`; else the port the destination was learnt on, the port
of the child it is or lies below, or a Branch's upstream port. -/
def State.portsTo (s : State) (dest : Nat) : List Nat :=
  if dest = toAll then s.childPorts
  else
    match tget 0 s.tree.routes dest with
    | n + 1 => [n]
    | 0 =>
      match s.childPorts.find? (fun p => match (s.port p).child with | some c => c == dest || isAbove s.tree.nodes c 10 dest | none => false) with
      | some p => [p]
      | none => if s.role = 2 then [s.tree.upstream] else []

/-- A message leaves on one port. -/
def State.sendOn (s : State) (p kind dest : Nat) (payload : List Byte) : State :=
  (s.emit (.message kind dest (ofBytes payload))).queueFrame p
    (makeFrame (kind / 256) false dest s.ownId 0 (BitVec.ofNat 8 kind :: payload))

/-- A message leaves for a destination, with the device that sent it first and the hops it has taken. -/
def State.sendFrom (s : State) (src hops kind dest : Nat) (payload : List Byte) : State :=
  (s.portsTo dest).foldl
    (fun s p => s.queueFrame p (makeFrame (kind / 256) (dest == toAll) dest src hops (BitVec.ofNat 8 kind :: payload)))
    (s.emit (.message kind dest (ofBytes payload)))

/-- A message leaves for a destination. One for every device below comes from the Postmaster, as far above as this device lies in the
tree (R280, R309). -/
def State.sendBytes (s : State) (kind dest : Nat) (payload : List Byte) : State :=
  if dest = toAll then s.sendFrom 0 s.tree.hops kind dest payload else s.sendFrom s.ownId 0 kind dest payload

/-- A message of fixed length, its fields given as one little-endian number. -/
def State.send (s : State) (kind dest arg : Nat) : State := s.sendBytes kind dest (bytesOf (msgBytes kind) arg)

/-- A message of fixed length on one port. -/
def State.sendPort (s : State) (p kind dest arg : Nat) : State := s.sendOn p kind dest (bytesOf (msgBytes kind) arg)

/-- Bytes cut into pieces of at most `n`, with fuel. -/
def chunks (n : Nat) : Nat → List Byte → List (List Byte)
  | 0, _ => []
  | fuel + 1, bs => if bs.isEmpty then [] else bs.take n :: chunks n fuel (bs.drop n)

/-- Data of a broadcast image goes down the tree in frames: a flag byte (bit 0 header, bit 1 last), the base line in 5 bytes, up to
229 data bytes (the layout is the model's own, notes/assumptions/28.md). -/
def State.sendData (s : State) (base : Nat) (first last : Bool) (bytes : List Byte) : State :=
  let ps := chunks 229 (bytes.length + 1) bytes
  (ps.mapIdx (fun i c => (i, c))).foldl (fun (s : State) ic =>
    let flags := b2n (first && ic.1 == 0) + 2 * b2n (last && ic.1 + 1 == ps.length)
    s.sendBytes msgPattern toAll (bytesOf 6 (flags + 2 ^ 8 * base) ++ ic.2)) s

end Sys2Proof.Machine
end

