-- ==== Sys2Proof/Machine/Match.lean ====
section
/-! DEFINITION. System match groups on this device: joining, verdicts, results (R90, R330 to R332). -/

namespace Sys2Proof.Machine

/-- The combiner of a group: the Postmaster by default (R330). -/
def State.combinerOf (s : State) (g : Nat) : Nat := (s.mgroup g).combiner

def State.isCombiner (s : State) (g : Nat) : Bool := s.combinerOf g == s.ownId

/-- Fields of a VERDICT or RESULT: group, decision vector index, the flag, each padded to whole bytes (Table 14.1). -/
def matchArg (g i : Nat) (ok : Bool) : Nat := g + 2 ^ 8 * i + 2 ^ 64 * b2n ok

/-- A verdict of device `v` speaks for device `d` as well: `d` lies below it, or behind the port whose tree link leads to it, since a
Branch combines its subtree's verdicts (R330). -/
def State.speaksFor (s : State) (v d : Nat) : Bool :=
  isAbove s.tree.nodes v 10 d
    || (List.range 4).any (fun p => (s.port p).child == some v && tget 0 s.tree.routes d == p + 1)

/-- What the verdicts received say of a joined member: its own, or that of a device above it that combined its subtree's. -/
def State.verdictOf (s : State) (g d : Nat) : Option Bool :=
  let vs := (s.mgroup g).verdicts
  match vs.find? (fun v => v.1 == d) with
  | some v => some v.2
  | none => (vs.find? (fun v => v.1 != s.ownId && s.speaksFor v.1 d)).map (·.2)

/-- RESULT goes to every device below, from the combiner (R330). -/
def State.sendResult (s : State) (combiner hops arg : Nat) : State :=
  s.sendFrom combiner hops msgResult toAll (bytesOf (msgBytes msgResult) arg)

/-- The round of a group ends: a combiner sends RESULT, a Branch that combines a subtree sends one VERDICT (R330). -/
def State.matchFinish (s : State) (g : Nat) : State :=
  let x := s.mgroup g
  match x.index with
  | none => s
  | some i =>
    if x.resultSent then s
    else
      let ok := x.joined.all (fun d => s.verdictOf g d == some true)
      if s.isCombiner g then
        let s := s.setMgroup g { x with resultSent := true, result := some (i, ok), deadline := none }
        s.sendResult s.ownId 0 (matchArg g i ok)
      else
        (s.setMgroup g { x with resultSent := true, deadline := none }).send msgVerdict x.combiner (matchArg g i ok)

/-- The round ends once every joined member's verdict has arrived. -/
def State.matchCheck (s : State) (g : Nat) : State :=
  let x := s.mgroup g
  if !x.resultSent && x.index.isSome && x.joined.all (fun d => (s.verdictOf g d).isSome) then s.matchFinish g else s

/-- Nothing of an earlier run of a group is left: its index, verdicts and RESULT (R90, R330). -/
def matchFresh (x : MatchGroup) : MatchGroup :=
  { x with index := none, verdicts := [], resultSent := false, result := none, deadline := none }

/-- A device joins a group: the combiner and the Branches on the way keep it. The first to join begins a new run. -/
def State.matchJoin (s : State) (g d : Nat) : State :=
  let x := s.mgroup g
  let x := if x.joined.isEmpty then matchFresh x else x
  let s := s.setMgroup g { x with joined := if d ∈ x.joined then x.joined else x.joined ++ [d] }
  if s.isCombiner g then s else s.send msgJoin (s.combinerOf g) (g + 2 ^ 8 * d)

/-- A device leaves a group; nobody waits for its verdicts any more (R332). -/
def State.matchLeave (s : State) (g d : Nat) : State :=
  let x := s.mgroup g
  let s := s.setMgroup g { x with joined := x.joined.filter (· != d), verdicts := x.verdicts.filter (fun v => v.1 != d) }
  let s := if s.isCombiner g then s else s.send msgLeave (s.combinerOf g) (g + 2 ^ 8 * d)
  s.matchCheck g

/-- A verdict for a decision vector index: a later index begins a new round; one that comes after its round's RESULT has gone is
late (R330). -/
def State.matchVerdict (s : State) (g d i : Nat) (ok : Bool) (deadline : Option Nat) : State :=
  let x := s.mgroup g
  let fresh := match x.index with | some j => decide (j < i) | none => true
  if !x.joined.any (fun j => j == d || s.speaksFor d j) then s
  else if fresh then
    (s.setMgroup g { x with index := some i, verdicts := [(d, ok)], resultSent := false, deadline := deadline }).matchCheck g
  else if x.index = some i && !x.resultSent then
    (s.setMgroup g { x with verdicts := (x.verdicts.filter (fun v => v.1 != d)) ++ [(d, ok)]
                            deadline := if x.deadline.isSome then x.deadline else deadline }).matchCheck g
  else if s.isCombiner g then (s.rcAdd aMatchLate 1).fault 38 g
  else s

/-- Sites of this device that take part in a group's run. -/
def State.groupRunSites (s : State) (g : Nat) : List Nat := (List.range 32).filter (fun k => (s.site k).joined == some g)

/-- A site of a match group reaches its epoch: the device joins with its first such site, where its record has IN_SUBTREE set, and
the site keeps the H it starts with (R330, R331). -/
def State.matchEpoch (s : State) (k : Nat) : State :=
  let g := matchGroupOf s.cfg.committed k
  if g = 0 then s
  else
    let inside := match s.matchRec g with | some (_, b) => b | none => false
    let first := (s.groupRunSites g).isEmpty
    let s := s.modSite k (fun x => { x with hEpoch := some (s.matchH g), joined := if inside then some g else none })
    let s := if first then s.setMgroup g { s.mgroup g with
        result := none, verdicts := (s.mgroup g).verdicts.filter (fun v => v.1 != s.ownId) } else s
    if inside && first then s.matchJoin g s.ownId else s

/-- A site of a match group reaches IDLE: the device leaves with its last such site. -/
def State.matchIdle (s : State) (k : Nat) : State :=
  match (s.site k).joined with
  | none => s
  | some g =>
    let s := s.modSite k (fun x => { x with joined := none })
    if (s.groupRunSites g).isEmpty then s.matchLeave g s.ownId else s

/-- The H in force for a site (R83, R331). -/
def State.siteH (s : State) (k : Nat) : Nat := (s.site k).hEpoch.getD (s.matchH (matchGroupOf s.cfg.committed k))

/-- A site has decided its pass: once every site of the group on this device has, the device gives its verdict (R330). -/
def State.matchDecide (s : State) (k i tdp : Nat) (ok : Bool) : State :=
  let s := s.modSite k (fun x => { x with sysMatch := some ok })
  match (s.site k).joined with
  | none => s
  | some g =>
    let ks := s.groupRunSites g
    if ks.all (fun j => (s.site j).sysMatch.isSome) then
      s.matchVerdict g s.ownId i (ks.all (fun j => (s.site j).sysMatch == some true)) (some (tdp + s.siteH k / 2))
    else s

/-- JOIN arrives. -/
def execJoin (group : BitVec 8) (dev : BitVec 10) (s : State) : Host.Outcome State Fault Refusal :=
  .next (s.matchJoin group.toNat dev.toNat)

/-- LEAVE arrives. -/
def execLeave (group : BitVec 8) (dev : BitVec 10) (s : State) : Host.Outcome State Fault Refusal :=
  .next (s.matchLeave group.toNat dev.toNat)

/-- VERDICT arrives. -/
def execVerdict (group : BitVec 8) (dev : BitVec 10) (index : BitVec 52) (matched : Bool) (s : State) :
    Host.Outcome State Fault Refusal :=
  .next (s.matchVerdict group.toNat dev.toNat index.toNat matched none)

/-- RESULT arrives, having taken some hops from the group's combiner: it is kept for the condition at t_dp + H_g, and sent on downwards
(R280, R330). -/
def execResult (group : BitVec 8) (index : BitVec 52) (verdict : Relayed) (s : State) : Host.Outcome State Fault Refusal :=
  let g := group.toNat
  let s := s.setMgroup g { s.mgroup g with result := some (index.toNat, verdict.matched) }
  .next (s.sendResult (s.mgroup g).combiner (verdict.hops.val + 1) (matchArg g index.toNat verdict.matched))

/-- MATCH_RESULT_DEADLINE: t_dp + H_g / 2 comes at the combiner before every verdict has (R330). -/
def execMatchResultDeadline (group : BitVec 8) (s : State) : Host.Outcome State Fault Refusal :=
  let g := group.toNat
  let x := s.mgroup g
  if x.resultSent || x.index.isNone || !s.isCombiner g then .next s
  else
    let s := match x.deadline with | some t => s.advance t | none => s
    .next (s.matchFinish g)

end Sys2Proof.Machine
end

