-- ==== Sys2Proof/Machine/Walk.lean ====
section
/-! DEFINITION. Where a walk stands and what it fetches: the prefetch walker, the prefetch and the pigeonholes (R79, R81, R93 to
R96, R184). -/

namespace Sys2Proof.Machine

/-- The committed configuration. -/
def State.cv (s : State) : Tab Nat := s.cfg.committed

/-- The site whose record carries the walk of a site: the lead member of its broadcast group (R66). -/
def State.leadSite (s : State) (k : Nat) : Nat := leadOf s.cv k

/-- The segment is fetched by a stream during the run. -/
def isStreamed (cv : Tab Nat) (w e : Nat) : Bool := fetches cv w && !segResident e

/-- What follows the last pass of a segment, without a jump: none where the run ends there (R81, R86). A RETURN with an empty
stack ends the path; a committed table has none (R82). -/
def afterSegment (e : Nat) (stack : List Nat) : Option (Nat × List Nat) :=
  if segEnd e then none
  else if segCall e then some (segTarget e, segNext e :: stack)
  else if segReturn e then (match stack with | t :: ts => some (t, ts) | [] => none)
  else some (segNext e, stack)

/-- A walker that enters a segment: it reads the entry (R79). -/
def walkerEnter (cv : Tab Nat) (x : Walker) (seg : Nat) (stack : List Nat) : Walker :=
  { x with seg := seg, entry := cvSeg cv seg, pass := 0, line := 0, stack := stack, via := ⟨seg, cvSeg cv seg, stack⟩ :: x.via
           idle := x.idle + 1
           mark := if x.idle ≠ 0 ∧ x.idle = 2 ^ Nat.log2 x.idle then some (x.seg, x.stack) else x.mark
           jumpTo := none, ended := x.mark == some (seg, stack) }

/-- The lines of a pass that the walker fetches: none of a resident segment. -/
def walkerLines (cv : Tab Nat) (w : Nat) (x : Walker) : Nat := if isStreamed cv w x.entry then segLines cv w x.entry else 0

/-- Segments that the walker enters at most in one command; a longer path without a line goes on with the next. -/
def walkerFuel : Nat := 65536 * 9

/-- The walker has a line to fetch. -/
def walkerAtLine (cv : Tab Nat) (w : Nat) (x : Walker) : Bool := !x.ended && decide (x.line < walkerLines cv w x)

/-- The walker on its way to its next line to fetch, along the path on which no jump is taken, or after a jumping pass to the target
(R93, R96). A path that comes round to a segment with the same stack, no line fetched since, never fetches again and has ended. -/
def walkerSeek (cv : Tab Nat) (w : Nat) : Nat → Walker → Walker
  | 0, x => x
  | fuel + 1, x =>
    if x.ended || decide (x.line < walkerLines cv w x) then x
    else
      match x.jumpTo with
      | some (n, st) => walkerSeek cv w fuel (walkerEnter cv x n st)
      | none =>
        if walkerLines cv w x ≠ 0 ∧ x.pass < segRepeat x.entry then { x with pass := x.pass + 1, line := 0 }
        else
          match afterSegment x.entry x.stack with
          | none => { x with ended := true }
          | some (n, st) => walkerSeek cv w fuel (walkerEnter cv x n st)

/-- A walker ready to fetch from the start of a segment; `via` are segments entered before it and not yet walked, newest first. -/
def newWalker (cv : Tab Nat) (w seg : Nat) (stack : List Nat) (via : List Entered) : Walker :=
  walkerSeek cv w walkerFuel (walkerEnter cv
    { seg := seg, entry := 0, pass := 0, line := 0, stack := stack, ended := false, via := via, idle := 0, mark := none, jumpTo := none }
    seg stack)

/-- The walker after it has fetched its line. -/
def walkerStep (cv : Tab Nat) (w : Nat) (x : Walker) : Walker :=
  walkerSeek cv w walkerFuel { x with line := x.line + 1, via := [], idle := 0, mark := none }

/-- Lines of 512 KB of prefetch (R93). -/
def prefetchLines : Nat := 8192

/-- The entry of the segment that the walk is in, or is about to enter (R79). -/
def State.curEntry (s : State) (x : Site) : Nat := if x.started then x.entry else cvSeg s.cv x.seg

/-- Lines of the current pass that the executing walk has not done with. -/
def State.passLeft (s : State) (w : Nat) : Nat :=
  let x := s.site w
  let e := s.curEntry x
  if !isStreamed s.cv w e then 0
  else segLines s.cv w e - (if segLength e ≤ x.v then segLines s.cv w e else x.v / perLine s.cv w e)

/-- The configuration whose Segment Table the walker reads: while a prepared commit is pending, with the entries that it replaces read
afresh (R184). -/
def State.walkCv (s : State) : Tab Nat :=
  match s.cfg.pending with
  | some p => if p.prepared.isSome then overlay s.cv (p.items.filter (fun kv => kv.1 / 65536 == 7)) else s.cv
  | none => s.cv

/-- A jump is taken: the walker drops what lies beyond the jumping pass and goes on at the target, once it has fetched what is left of
that pass (R96). -/
def State.jumpWalker (s : State) (w target : Nat) : State :=
  if !isStream s.cv w then s
  else
    let n := s.passLeft w
    let x := s.site w
    let fresh := newWalker s.walkCv w target x.stack []
    let walker := match x.walker with
      | some k => if x.prefetch.length < n then { k with jumpTo := some (target, x.stack), ended := false } else fresh
      | none => fresh
    s.setSite w { x with prefetch := x.prefetch.take n, walker := some walker }

/-- An entry apart from its FRANK, which SEAL writes. -/
def entryKey (e : Nat) : Nat := putFld e 176 32 0

/-- The first segment of those entered whose entry has been replaced since it was read, with those before it. -/
def firstStale (cv : Tab Nat) : List Entered → Option (List Entered × Entered)
  | [] => none
  | v :: rest =>
    if entryKey (cvSeg cv v.seg) = entryKey v.entry then (firstStale cv rest).map (fun r => (v :: r.1, r.2)) else some ([], v)

/-- The lines before the first that was fetched past a stale entry, with that entry and those before it on its line. -/
def staleLine (cv : Tab Nat) : List FetchedLine → Option (List FetchedLine × List Entered × Entered)
  | [] => none
  | l :: rest =>
    match firstStale cv l.via with
    | some (before, v) => some ([], before, v)
    | none => (staleLine cv rest).map (fun r => (l :: r.1, r.2))

/-- Replaced entries are read afresh: lines fetched under an old entry, for a segment that the walk has not entered, are dropped and
fetched again (R184). -/
def State.refetch (s : State) (w : Nat) : State :=
  let x := s.site w
  match x.walker with
  | none => s
  | some k =>
    match staleLine s.walkCv x.prefetch with
    | some (keep, before, v) => s.setSite w { x with prefetch := keep, walker := some (newWalker s.walkCv w v.seg v.stack before.reverse) }
    | none =>
      match firstStale s.walkCv k.via.reverse with
      | some (before, v) => s.setSite w { x with walker := some (newWalker s.walkCv w v.seg v.stack before.reverse) }
      | none => s

/-- Every site's walker reads replaced entries afresh. -/
def State.refetchAll (s : State) : State := (List.range 32).foldl (fun s w => s.refetch w) s

/-- The executing walk enters its segment: it is no longer among those that only the walker has entered. -/
def popVia : List FetchedLine → Walker → List FetchedLine × Walker
  | [], k => ([], { k with via := k.via.dropLast })
  | l :: rest, k =>
    match l.via with
    | _ :: vs => ({ l with via := vs } :: rest, k)
    | [] => let (ls, k) := popVia rest k; (l :: ls, k)

/-- The walk has entered a segment. -/
def State.enterSegment (s : State) (w : Nat) : State :=
  s.modSite w (fun x => match x.walker with
    | some k => let (ls, k) := popVia x.prefetch k; { x with prefetch := ls, walker := some k }
    | none => x)

/-- The line address that the walk's next vector needs. -/
def State.lineWanted (s : State) (w : Nat) : Nat :=
  let x := s.site w
  let e := s.curEntry x
  segLine e + x.v / perLine s.cv w e

/-- The prefetch holds something else than what the walk needs next: a segment was entered under another entry than its lines were
fetched under. -/
def State.misfetched (s : State) (w : Nat) : Bool :=
  let x := s.site w
  let e := s.curEntry x
  isStreamed s.cv w e && decide (x.v < segLength e) && (match x.prefetch with | l :: _ => l.addr != s.lineWanted w | [] => false)

/-- The walker set back to where the executing walk stands (R184). -/
def State.realign (s : State) (w : Nat) : State :=
  let x := s.site w
  let e := s.curEntry x
  let via : List Entered := if x.started then [] else [⟨x.seg, e, x.stack⟩]
  s.setSite w { x with
    prefetch := []
    walker := some { seg := x.seg, entry := e, pass := x.pass, line := x.v / perLine s.cv w e, stack := x.stack, ended := false, via := via
                     idle := 0, mark := none, jumpTo := if x.jump then some (segTarget e, x.stack) else none } }

/-! ### Pigeonholes (R94, R95, R180) -/

/-- The resident segments that a walk reaches in a configuration: line address, LENGTH, lines. -/
def residentLines (cv : Tab Nat) (w : Nat) : List (Nat × Nat × Nat) :=
  if !isStream cv w then []
  else ((reachable cv w).filter (fun i => segResident (cvSeg cv i))).map (fun i =>
    (segLine (cvSeg cv i), segLength (cvSeg cv i), segLines cv w (cvSeg cv i)))

/-- The pigeonholes of a line address and LENGTH. -/
def State.holeOf (s : State) (line length : Nat) : Option Hole := s.mem.holes.find? (fun h => h.line == line && h.length == length)

/-- A set of pigeonholes is filled from the lines as they stand: what it holds already stays, since sets are shared (R94). -/
def State.fillHole (s : State) (r : Nat × Nat × Nat) : State :=
  let old := match s.holeOf r.1 r.2.1 with | some h => h.lines | none => []
  let more := (List.range (r.2.2 - old.length)).map (fun i => (s.lineData (r.1 + old.length + i), s.isPoisoned (r.1 + old.length + i)))
  let h : Hole := { line := r.1, length := r.2.1, lines := old ++ more }
  { s with mem := { s.mem with holes := s.mem.holes.filter (fun g => !(g.line == r.1 && g.length == r.2.1)) ++ [h] } }

/-- The frank of the lines a set of pigeonholes holds, as its fill computes it (R95). -/
def holeFrank (h : Hole) (n : Nat) : BitVec 32 := crc32c ((h.lines.take n).flatMap (fun l => bytesOf 64 l.1.toNat))

/-- Pigeonholes that neither a site nor a pending commit holds are free again. -/
def State.freeHoles (s : State) : State :=
  let used := (List.range 32).flatMap (fun k => (s.site k).resident)
    ++ (match s.cfg.pending with | some p => p.fills.map (fun r => (r.1, r.2.1)) | none => [])
  { s with mem := { s.mem with holes := s.mem.holes.filter (fun h => used.contains (h.line, h.length)) } }

/-- A walk's group holds the pigeonholes of its reachable residents: those not filled yet are filled (R95). -/
def State.holdHoles (s : State) (w : Nat) : State :=
  let rs := residentLines s.cv w
  let s := rs.foldl (fun s r => s.fillHole r) s
  (groupOf s.cv w).foldl (fun s m => s.modSite m (fun x => if x.st == .idle then x else
    { x with resident := dedup (x.resident ++ rs.map (fun r => (r.1, r.2.1))) })) s

/-- The members of a site's broadcast group, or the site, in a state. -/
def State.membersIn (s : State) (k : Nat) (p : SeqState → Bool) : List Nat := (groupOf s.cv k).filter (fun m => p (s.site m).st)

/-- The sites to which the walk now supplies vectors: the members in RUN, or a single site in HOLD (R67, R101). -/
def State.walkers (s : State) (k : Nat) : List Nat :=
  s.membersIn k (fun st => st == .run || (st == .hold && cvBgroup s.cv k == 0))

/-- PREFETCH_FILL: the walker goes on towards its next line, and fetches it while the prefetch has room (R93). -/
def execPrefetchFill (site : Fin 32) (errs : Errors) (s : State) : Host.Outcome State Fault Refusal :=
  let w := s.leadSite site.val
  let live := (s.site w).st == .armed || !(s.walkers w).isEmpty
  let s := if live && (s.site w).walker.isSome && s.misfetched w then s.realign w else s
  let x := s.site w
  match x.walker with
  | none => .next s
  | some k =>
    if !live || !s.trained || decide (prefetchLines ≤ x.prefetch.length) then .next s
    else
      let k := walkerSeek s.walkCv w walkerFuel k
      if !walkerAtLine s.walkCv w k then .next (s.modSite w (fun x => { x with walker := some k }))
      else
        let a := segLine k.entry + k.line
        let (s, d, bad, _) := s.memRead a errs
        let line : FetchedLine := { addr := a, data := d, poisoned := bad, via := k.via.reverse }
        .next (s.modSite w (fun x => { x with prefetch := x.prefetch ++ [line], walker := some (walkerStep s.walkCv w k) }))

/-- The line of the vector that the walk issues next: its data and whether it is poisoned; none where the prefetch does not hold
it. A resident segment's comes from its pigeonholes; a site that fetches nothing reads every code as zero (R64, R95, R106). -/
def State.curLine (s : State) (w : Nat) : Option (BitVec 512 × Bool) :=
  let x := s.site w
  let e := s.curEntry x
  if !fetches s.cv w then some (0, false)
  else if segResident e then
    match s.holeOf (segLine e) (segLength e) with
    | some h => some (h.lines.getD (x.v / perLine s.cv w e) (0, false))
    | none => some (s.lineData (s.lineWanted w), s.isPoisoned (s.lineWanted w))
  else
    match x.prefetch with
    | l :: _ => if l.addr = s.lineWanted w then some (l.data, l.poisoned) else none
    | [] => none

/-- Code of a position in a slot of a line (R58). -/
def codeAt (cv : Tab Nat) (k e v p : Nat) (d : BitVec 512) : Nat :=
  let b := bitsPer cv k e
  fld d.toNat ((v % perLine cv k e * cvWidth cv k + p) * b) b

end Sys2Proof.Machine
end

