-- ==== Sys2Proof/Machine/Commit.lean ====
section
/-! DEFINITION. COMMIT, system commits and ABANDON (R180 to R188): the refusals, the preparation, the moments at which items apply,
and what an applied item does besides being committed. -/

namespace Sys2Proof.Machine

/-- 16 ns. -/
def lead16 : Nat := 128000

/-! ### C-46 (R56, R147, R155, R182, R193) -/

/-- Bits of a site mode word whose change needs an IDLE site: SV, SB, SG, ST, ML, CS, MATCH_GROUP, STARVE_POLICY (R155). -/
def idleModeBits (v : Nat) : List Nat := [fld v 0 1, fld v 2 2, fld v 7 3, fld v 16 9]

/-- The sites of channels, in the old configuration and the new. -/
def sitesOfChans (old new : Tab Nat) (cs : List Nat) : List Nat :=
  dedup (cs.flatMap (fun c => [cvSiteOf old c, cvSiteOf new c].filterMap id))

/-- The channels that a pair word names: none where its CONTROL word is zero (R147). -/
def pairChans (w : Nat) : List Nat := if fld w 0 32 = 0 then [] else [pairA w, pairB w]

/-- The sites that must be IDLE for an item to change from `a` to `b`. -/
def idleNeeds (old new : Tab Nat) (kind idx a b : Nat) : List Nat :=
  match kind with
  | 4 => if fld a 0 128 = fld b 0 128 ∧ a.testBit 130 = b.testBit 130 ∧ fld a 136 8 = fld b 136 8 then [] else [idx]
  | 5 => if fld a 0 8 = fld b 0 8 then [] else [idx]
  | 6 =>
    if idx < 32 then (if idleModeBits a = idleModeBits b then [] else [idx])
    else if idx < 160 then (if fld a 2 2 = fld b 2 2 then [] else sitesOfChans old new [idx - 32])
    else []
  | 11 =>
    if idx = 0 then
      if fld a 320 40 ≠ fld b 320 40 ∨ fld a 384 64 ≠ fld b 384 64 then List.range 32
      else (List.range 32).filter (fun k => fld a (4 * k) 4 != fld b (4 * k) 4 || a.testBit (128 + k) != b.testBit (128 + k))
    else if usedPart 11 idx a = usedPart 11 idx b then []
    else sitesOfChans old new ((pairChans a) ++ (pairChans b))
  | _ => []

/-- A site counts as IDLE at the commit boundary: one in DRAIN takes its items when it reaches IDLE, but the device stream setup and
the pair words do not wait for it (R147, R193; DEDUCED, notes/assumptions/21.md). -/
def idleEnough (x : Site) (kind : Nat) : Bool := x.st == .idle || (x.st == .drain && kind != 11)

/-- The sites that an item governs, in either configuration. -/
def governed (old new : Tab Nat) (kv : Nat × Nat) : List Nat :=
  let kind := kv.1 / 65536
  let idx := kv.1 % 65536
  dedup (itemSites old new kind idx kv.2 ++ itemSites old new kind idx (itemOf old kind idx))

/-- A site takes commits at its boundaries, or when it reaches IDLE. -/
def isBusySite (x : Site) : Bool := x.st == .armed || x.st == .run || x.st == .hold || x.st == .drain

/-- The commit form reaches a site (R181, R182): the whole broadcast group of a named one. -/
def State.reaches (s : State) (form mask site k : Nat) : Bool :=
  (groupOf s.cv k).any (fun j => if form = 1 then j == site else mask.testBit j)

/-- The C-46 violations of a draft under a commit form. -/
def State.c46 (s : State) (items : List (Nat × Nat)) (form mask site : Nat) : List Viol :=
  let old := s.cv
  let new := overlay old (items.filter (fun kv => kv.1 / 65536 != 12))
  dedup (items.flatMap (fun kv =>
    let kind := kv.1 / 65536
    let idx := kv.1 % 65536
    ((idleNeeds old new kind idx (itemOf old kind idx) kv.2).filter (fun k => !idleEnough (s.site k) kind)
      ++ (governed old new kv).filter (fun k => isBusySite (s.site k) && !s.reaches form mask site k)).map
        (fun k => violItem 46 kind k idx)))

/-- C-25 at the entry named by a segment-boundary commit (R96). -/
def landingAt (cv : Tab Nat) (k x : Nat) : List Viol :=
  if !fetches cv k then []
  else ((siteNodes cv k).1.filter (fun n => n.1 == x)).flatMap (fun n =>
    match landingBreak cv k [n] with
    | some t => [{ viol 25 7 k x x with detail := t / 1000 }]
    | none => [])

/-! ### Results and ends -/

/-- The COMMIT result. -/
def State.commitResult (s : State) (first n : Nat) : Nat :=
  s.cfg.commitSeq + 2 ^ 32 * first + 2 ^ 48 * min n 0xFFFF + 2 ^ 64 * s.digestHead

/-- The bound on preparation in TU: 5 µs, 1 ns for each 64 bytes of items, 4.096 µs for each new pigeonhole (R180). -/
def prepBound (items : List (Nat × Nat)) (holes : Nat) : Nat := 40000000 + ceilDiv (draftBytes items) 64 * 8000 + holes * 32768000

/-- The form-2 instant as system time in TU. -/
def instantOf (secs tu : Nat) : Nat := secs * tuPerSec + tu

/-- The moment from which a pending commit's items apply at boundaries: A + 16 ns, the entry into X, or the instant (Table 8.8). -/
def State.threshold (s : State) (p : PendingCommit) (a : Nat) : Nat :=
  if p.refDone then p.moment else if p.form = 2 then rootOfPtu s.ptu p.instant else a + lead16

/-- A site whose walk stands on the pigeonholes and the prefetch that its preparation filled. -/
def isPrepared (x : Site) : Bool := x.st == .run || x.st == .hold || (x.st == .armed && x.prepared)

/-- What follows a change of the Segment Table that walkers read: pigeonholes that nothing holds are free, replaced entries are read
afresh (R180, R184). -/
def State.tableChanged (s : State) : State := s.freeHoles.refetchAll

/-- The pigeonholes of residents that walks newly reach are theirs (R95, R180). -/
def State.holdAll (s : State) : State :=
  (List.range 32).foldl (fun s w => if (groupOf s.cv w).any (fun m => isPrepared (s.site m)) then s.holdHoles w else s) s

/-- Begin the commit that a task carries, where no other is pending (R180, R183, R185). VIOLATIONS of a system commit counts devices:
here the Postmaster alone. With an empty draft the Postmaster's system commit goes ahead, since it commits the drafts of the other
devices (DESIGN CHOICE, notes/assumptions/70.md). -/
def State.beginLocal (s : State) (t : Task) : State :=
  match t.op with
  | .commit form system budget site mask entry secs tu =>
    let rs := t.hdr.rs.val
    let items := s.draft rs
    if items.isEmpty && !system then s.complete t 0 (s.commitResult 0 0)
    else
      let new := s.candidate rs
      let vs := s.violations rs budget ++ (if form = 1 then landingAt new site entry else []) ++ s.c46 items form mask site
      let vs := dedup vs
      let code := (vs.map (·.code)).foldl min 49
      if !vs.isEmpty then s.complete t 2 (s.commitResult code (if system then 1 else vs.length))
      else
        let fills := s.newFills new
        let holes := holesOf fills
        let ready := s.now + prepBound items holes
        let i := instantOf secs tu
        let x := s.site site
        let late := if system then decide (i < s.ptuNow + 2 * s.tree.lsys + prepBound items holes)
          else if form = 2 then decide (i < ptuTuAt s.ptu (ready + lead16))
          else if form = 1 then !(x.st == .armed || x.st == .run || x.st == .hold) || !decide (entry ∈ reachable s.cv site)
          else false
        if late then s.complete t 12 (s.commitResult 47 1)
        else
          let p : PendingCommit := {
              task := some t.id, form := form, mask := mask, site := site, entry := entry, instant := i, rs := rs,
              budget := budget, items := items, prepDue := ready, prepared := none, refDone := false, moment := 0, fills := fills,
              lapsed := false, anyApplied := false, system := system, old := s.cv }
          let s := { s with cfg := { s.cfg with pending := some p } }
          if system then
            let sys : SystemCommit := {
                instant := i, epoch := s.cfg.epoch + 1, voted := false, readyDevs := [], refused := [],
                confirmed := [], gone := false, task := some t.id, slot := none }
            ({ s with cfg := { s.cfg with system := some sys } }).send msgPrepare toAll (time96 (i / tuPerSec) (i % tuPerSec) + 2 ^ 96 * sys.epoch)
          else s
  | _ => s

/-- A PREPARE that this device holds and has not begun: it checks the draft of ring set 0 and prepares, or refuses (R186). -/
def State.beginSystem (s : State) (sys : SystemCommit) : State :=
  let items := s.draft 0
  let refuse := fun code => ({ s with cfg := { s.cfg with system := some { sys with refused := [s.ownId] } } }).send msgRefuse 0
    (s.ownId + 2 ^ 16 * code)
  if !s.tree.inEpoch || sys.epoch ≠ s.cfg.epoch + 1 then refuse 48
  else
    let vs := s.violations 0 0 ++ s.c46 items 2 (2 ^ 32 - 1) 0
    let fills := s.newFills (s.candidate 0)
    let ready := s.now + prepBound items (holesOf fills)
    if !vs.isEmpty then refuse ((vs.map (·.code)).foldl min 49)
    else if sys.instant < ptuTuAt s.ptu (ready + lead16) then refuse 47
    else
      let p : PendingCommit := {
          task := none, form := 2, mask := 2 ^ 32 - 1, site := 0, entry := 0, instant := sys.instant, rs := 0,
          budget := 0, items := items, prepDue := ready, prepared := none, refDone := false, moment := 0, fills := fills,
          lapsed := false, anyApplied := false, system := true, old := s.cv }
      { s with cfg := { s.cfg with pending := some p } }

/-- A COMMIT in service that has not begun. -/
def waitsToBegin (p : Option PendingCommit) (sys : Option SystemCommit) (t : Task) : Bool :=
  t.st == .inService && !t.courier && (match t.op with | .commit .. => true | _ => false)
    && (match p with | some q => q.task != some t.id | none => true)
    && (match sys with | some q => q.task != some t.id | none => true)

/-- This device's part in a system commit is in service (R267). -/
def State.partRuns (s : State) (sys : SystemCommit) : Bool :=
  match sys.slot with
  | some id => (match s.task id with | some t => t.st == .inService | none => false)
  | none => false

/-- The COMMIT server takes this device's part in a system commit, which begins unless a commit is pending. -/
def engineSystemPart (s : State) : State :=
  match s.cfg.system, s.cfg.pending with
  | some sys, none => s.beginSystem sys
  | _, _ => s

/-- This device's part in a system commit is over; on a Branch its slot is freed (R267). -/
def State.endPart (s : State) : State :=
  match s.cfg.system with
  | none => s
  | some sys =>
    let s := { s with cfg := { s.cfg with system := none } }
    match sys.slot with | some id => s.completeId id 0 0 | none => s

/-- No commit is pending any more: the next that waits begins. -/
def State.nextCommit (s : State) : State :=
  match s.cfg.pending with
  | some _ => s
  | none =>
    match s.cfg.system with
    | some sys => if sys.task.isNone && !sys.voted && sys.refused.isEmpty && s.partRuns sys then s.beginSystem sys else
        (match s.so.tasks.find? (waitsToBegin none (some sys)) with | some t => s.beginLocal t | none => s)
    | none => match s.so.tasks.find? (waitsToBegin none none) with | some t => s.beginLocal t | none => s

/-- ABANDONs of a ring set that wait for its commit's end discard the draft and form their outcome (R185, R187). -/
def State.settleAbandons (s : State) (rs : Nat) : State :=
  let ts := s.so.tasks.filter (fun t => t.st == .inService && t.hdr.rs.val == rs && t.outcome.isNone
    && (match t.op with | .abandon => true | _ => false))
  if ts.isEmpty then s
  else ts.foldl (fun s t => s.setOutcome t.id 0 0) { s with cfg := { s.cfg with drafts := tset [] s.cfg.drafts rs [] } }

/-- Complete a commit's task, if it has one, with its result. -/
def State.commitDone (s : State) (task : Option Nat) (status first n : Nat) : State :=
  match task with | some id => s.completeId id status (s.commitResult first n) | none => s

/-- A commit ends before anything changed: its draft stays (R185). -/
def State.endCommit (s : State) (p : PendingCommit) (status first n : Nat) : State :=
  let s := ({ s with cfg := { s.cfg with pending := none } }).tableChanged
  ((s.commitDone p.task status first n).settleAbandons p.rs).nextCommit

/-! ### System commits: votes and outcomes (R186, R187) -/

/-- A device or one above it has answered. -/
def answeredBy (nodes : List Node) (ds : List Nat) (d : Nat) : Bool := ds.any (fun a => a == d || isAbove nodes a 10 d)

/-- The devices whose votes this device collects: the tree on a Postmaster, the tree children on a Branch. -/
def State.votersBelow (s : State) : List Nat :=
  if s.role = 1 then ((s.tree.nodes.filter (·.inTree)).map (·.id)).filter (· != 0)
  else (List.range 4).filterMap (fun p => (s.port p).child)

/-- The outcome of a system commit goes to this device's own event ring (R187). -/
def State.systemEvent (s : State) (status : Nat) : State := s.event 8 status s.cfg.commitSeq

/-- Every vote is READY: a Postmaster sends GO, a Branch forwards its subtree's READY (R186). -/
def State.voteCheck (s : State) : State :=
  match s.cfg.system, s.cfg.pending with
  | some sys, some p =>
    if !p.system || p.prepared.isNone || sys.voted || !sys.refused.isEmpty
        || !s.votersBelow.all (answeredBy s.tree.nodes sys.readyDevs) then s
    else if sys.task.isSome then
      ({ s with cfg := { s.cfg with system := some { sys with voted := true, gone := true } } }).send msgGo toAll 0
    else
      ({ s with cfg := { s.cfg with system := some { sys with voted := true } } }).send msgReady 0 s.ownId
  | _, _ => s

/-- This device's part in a system commit ends with nothing changed. -/
def State.dropSystem (s : State) (status first n : Nat) : State :=
  let s := match s.cfg.system with
    | some sys => if sys.task.isSome then s.send msgAbort toAll 0 else s
    | none => s
  let s := s.endPart
  let s := match s.cfg.pending with
    | some p => if p.system then s.endCommit p status first n else s
    | none => s
  s.systemEvent status

/-- The Postmaster's COMMIT completes once every device has confirmed (R187). -/
def State.confirmCheck (s : State) : State :=
  match s.cfg.system with
  | some sys =>
    if sys.gone && sys.task.isSome && s.ownId ∈ sys.confirmed && s.votersBelow.all (fun d => decide (d ∈ sys.confirmed)) then
      let s := { s with cfg := { s.cfg with system := none } }
      (((s.commitDone sys.task 0 0 0).systemEvent 0).settleAbandons 0).nextCommit
    else s
  | none => s

/-! ### Applying items (R181) -/

/-- A commit's last item has applied (R171, R177, R185, R188). -/
def State.finishCommit (s : State) (p : PendingCommit) : State :=
  let s := { s with cfg := { s.cfg with
    pending := none, commitSeq := (s.cfg.commitSeq + 1) % 2 ^ 32, warm := p.budget == 1, budget := s.budgetOf p.budget,
    demand := demandMB s.cv, drafts := tset [] s.cfg.drafts p.rs [] } }
  let s := s.tableChanged
  if !p.system then ((s.commitDone p.task 0 0 0).settleAbandons p.rs).nextCommit
  else
    match s.cfg.system with
    | some sys =>
      if sys.task.isSome then
        ({ s with cfg := { s.cfg with system := some { sys with confirmed := s.ownId :: sys.confirmed } } }).confirmCheck
      else
        let s := s.endPart.send msgConfirm 0 s.ownId
        ((s.systemEvent 0).settleAbandons 0).nextCommit
    | none => (s.settleAbandons 0).nextCommit

/-- Before items apply at a boundary, what earlier vectors have left stands: strobes up to now are judged and stamps are placed (R47, R141). -/
def State.settleWalks (s : State) : State :=
  (List.range 32).foldl (fun s k =>
    let x := s.site k
    if hasBoundary x then
      let s := s.settleTo k x.acc (judgeLimit x ((s.now : Int) - x.epoch)) (-farTime)
      (s.siteChans k).foldl (fun s c => s.settleStamps k c) s
    else s) s

/-- What the items applied at root time `t` do besides being committed: channels that leave their site are deasserted in place
(R18), a generator turned on during a run is loaded (R159), a new postmark setting applies to later vectors (R141), a new TRK_REF starts its chain of votes afresh (R56), the prefetch reads
replaced entries again (R184), PE script 0 plays (R181), an old spill ring drains (R193), a ring resize becomes pending (R255). The
fail log keeps its entries where LOG_DEPTH changes (DESIGN CHOICE, notes/assumptions/71.md). -/
def State.itemEffects (s : State) (old : Tab Nat) (items : List (Nat × Nat)) (t : Nat) : State :=
  let new := s.cv
  let sites := (items.filter (fun kv => kv.1 / 65536 == 4)).map (fun kv => kv.1 % 65536)
  let s := sites.foldl (fun s k =>
    let gone := (cvChans old k).filter (fun c => !(cvMembers new k).testBit c)
    let s := gone.foldl (fun s c => s.forceIdle c true ((t : Int) - (s.site k).epoch)) s
    if fld (cvTracking old k) 0 7 = fld (cvTracking new k) 0 7 then s
    else s.modSite k (fun x => { x with track := { x.track with prevE := none } })) s
  let s := (List.range 32).foldl (fun s k =>
    if (s.site k).st == .run || (s.site k).st == .hold then
      (cvChans new k).foldl (fun s c =>
        let s := if chanOn new k c mAO && !chanOn old k c mAO then s.modChan c (fun x => { x with gen := genLoad (cvGen new c) }) else s
        let was := (cvPmWord old c, chanOn old k c mEP)
        let now := (cvPmWord new c, chanOn new k c mEP)
        if was = now then s
        else s.modChan c (fun x => { x with
          pmHist := ((t : Int) - (s.site k).epoch, now) :: (if x.pmHist.isEmpty then [(-farTime, was)] else x.pmHist) })) s
    else s) s
  let s := if items.any (fun kv => kv.1 / 65536 == 7) then s.holdAll.refetchAll else s
  let s := (List.range 16).foldl (fun s g =>
    if items.any (fun kv => kv.1 == itemKey 8 (4 * g)) then s.wantScript g 0 0 else s) s
  let s := if spillBase old = spillBase new ∧ spillBags old = spillBags new then s
    else { s with acq := { s.acq with spillOld := s.acq.spill.length, spillPos := 0 } }
  (items.filter (fun kv => kv.1 / 65536 == 12)).foldl (fun s kv =>
    let i := kv.1 % 65536
    s.modRs (i / 4) (fun r => { r with resize := tset none r.resize (i % 4) (some (fld kv.2 0 8)) })) s

/-- Apply the chosen items of the pending commit at root time `t`; with the last, the commit ends. -/
def State.applyItems (s : State) (p : PendingCommit) (pick : Nat × Nat → Bool) (t : Nat) : State :=
  let now := p.items.filter pick
  let rest := p.items.filter (fun kv => !pick kv)
  let old := s.cv
  let p := { p with items := rest, anyApplied := p.anyApplied || !now.isEmpty, old := if p.anyApplied then p.old else old }
  let s := { s with cfg := { s.cfg with
    committed := overlay s.cfg.committed (now.filter (fun kv => kv.1 / 65536 != 12)), pending := some p } }
  let s := s.itemEffects old now t
  if rest.isEmpty && p.refDone then s.finishCommit p else s

/-- An item of a pending commit that still needs an IDLE site waits for it. -/
def State.mustWait (s : State) (p : PendingCommit) (kv : Nat × Nat) : Bool :=
  let new := overlay s.cv (p.items.filter (fun kv => kv.1 / 65536 != 12))
  let kind := kv.1 / 65536
  let idx := kv.1 % 65536
  (idleNeeds s.cv new kind idx (itemOf s.cv kind idx) kv.2).any (fun k => (s.site k).st != .idle)

/-- The site at whose moment an item applies: none for an item that governs no site. -/
def State.homeSite (s : State) (p : PendingCommit) (kv : Nat × Nat) : Option Nat :=
  let new := overlay s.cv (p.items.filter (fun kv => kv.1 / 65536 != 12))
  match governed new new kv with
  | k :: _ => some k
  | [] => (governed s.cv s.cv kv).head?

/-- The epoch of the RUN that waits on a prepared lead site, where its start condition names one (R103): an immediate start takes
the first CLK_FRAME edge (DEDUCED, notes/assumptions/23.md). -/
def State.epochOf (s : State) (w : Nat) : Option Nat :=
  let x := s.site w
  match x.req with
  | some r =>
    if !x.prepared then none
    else if r.start = 0 then some (ceilDiv s.now tuPerFrame * tuPerFrame)
    else if r.start = 1 then x.epochAt
    else some (rootOfPtu s.ptu (r.secs * tuPerSec + r.tu))
  | none => none

/-- The next boundary of a site's walk in root TU: the epoch it waits for where it is ARMED (Table 8.8). -/
def State.nextBoundary (s : State) (k : Nat) : Option Nat :=
  let x := s.site (s.leadSite k)
  match (s.site k).st with
  | .run => some (x.epoch + x.acc)
  | .hold => some (x.epoch + x.acc)
  | .armed => s.epochOf (s.leadSite k)
  | _ => none

/-- A prepared commit has items for a site whose next boundary is at or after their moment. -/
def State.commitDueAt (s : State) (k b : Nat) : Bool :=
  match s.cfg.pending with
  | some p =>
    match p.prepared with
    | some a =>
      p.refDone && decide (s.threshold p a ≤ b)
        && p.items.any (fun kv => (match s.homeSite p kv with | some j => decide (j ∈ groupOf s.cv k) | none => false) && !s.mustWait p kv)
    | none => false
  | none => false

/-- The reference moment of a pending commit in forms 0 and 2 has come and not been taken: nothing at or after it may go first. -/
def State.referenceDue (s : State) (b : Nat) : Bool :=
  match s.cfg.pending with
  | some p =>
    (match p.prepared with
     | some a => p.form != 1 && !p.refDone && decide (s.threshold p a ≤ b)
         && (!p.system || (match s.cfg.system with | some sys => sys.gone | none => false))
     | none => false)
  | none => false

/-- The walk of a site is about to enter segment X, with its first vector at root TU `b`. -/
def State.entersAt (s : State) (w x : Nat) : Option Nat :=
  let y := s.site w
  if !(s.walkers w).isEmpty then
    (if !y.started && y.v == 0 && y.pass == 0 && y.seg == x then some (y.epoch + y.acc) else none)
  else if y.st == .armed then
    (match y.req, s.epochOf w with | some r, some b => if r.seg = x then some b else none | _, _ => none)
  else none

/-- A prepared segment-boundary commit is due where the walk stands (R181). -/
def State.segmentDue (s : State) (w : Nat) : Option Nat :=
  match s.cfg.pending with
  | some p =>
    match p.prepared with
    | some a =>
      if p.form = 1 ∧ !p.refDone ∧ s.leadSite p.site = w then
        (match s.entersAt w p.entry with | some b => if a + lead16 ≤ b then some b else none | none => none)
      else none
    | none => none
  | none => none

/-- The preparation of a commit has ended: its pigeonholes are filled from the lines as they stand, and the walkers read the entries
that it replaces (R180, R184). -/
def State.commitReady (s : State) (p : PendingCommit) : State :=
  let new := overlay s.cv (p.items.filter (fun kv => kv.1 / 65536 != 12))
  let s := { s with cfg := { s.cfg with pending := some { p with prepared := some s.now } } }
  let s := (List.range 32).foldl (fun s w =>
    ((residentLines new w).filter (fun r => p.fills.any (fun f => f.1 == r.1 && f.2.1 == r.2.1))).foldl (fun s r => s.fillHole r) s) s
  s.refetchAll

/-- COMMIT_PREPARED: the preparation ends; a site that has moved since the check refuses the commit (R180, R182, R183). -/
def execCommitPrepared (s : State) : Host.Outcome State Fault Refusal :=
  match s.cfg.pending with
  | none => .next s
  | some p =>
    if p.prepared.isSome then .next s
    else
      let s := s.advance p.prepDue
      let bad := s.c46 p.items p.form p.mask p.site
      if p.system then
        let s := s.commitReady p
        if bad.isEmpty then .next s.voteCheck
        else if p.task.isSome then .next (s.dropSystem 2 46 1)
        else
          let sys := s.cfg.system.map (fun sys => { sys with refused := s.ownId :: sys.refused })
          let s := { s with cfg := { s.cfg with system := sys } }
          .next (s.send msgRefuse 0 (s.ownId + 2 ^ 16 * 46))
      else if !bad.isEmpty then .next (s.endCommit p 2 46 bad.length)
      else
        let x := s.site p.site
        if p.form = 1 ∧ (p.lapsed || !(x.st == .armed || x.st == .run || x.st == .hold)) then .next (s.endCommit p 12 47 1)
        else .next (s.commitReady p)

/-- The START_DELAY and START_LIST fields of a site membership item taken from another (Table 8.2). -/
def withStart (old new : Nat) : Nat := putFld (putFld old 256 40 (fld new 256 40)) 320 128 (fld new 320 128)

/-- At the reference moment the START_DELAY and START_LIST of every staged site apply, whatever the site's own moment (R56). -/
def State.applyStarts (s : State) (p : PendingCommit) : State × PendingCommit :=
  let now := (p.items.filter (fun kv => kv.1 / 65536 == 4)).map (fun kv => (kv.1, withStart (itemOf s.cv 4 (kv.1 % 65536)) kv.2))
  let changes := now.any (fun kv => kv.2 != itemOf s.cv 4 (kv.1 % 65536))
  let p := { p with old := if p.anyApplied then p.old else s.cv, anyApplied := p.anyApplied || changes }
  ({ s with cfg := { s.cfg with committed := overlay s.cfg.committed now, pending := some p } }, p)

/-- The reference moment of forms 0 and 2: items of no site, and those of sites in IDLE, STARVED and PARKED, apply (Table 8.8).
Where nothing has applied yet, a site that has moved refuses the commit (DEDUCED, notes/assumptions/22.md). -/
def State.commitReference (s : State) (p : PendingCommit) (a : Nat) : State :=
  let t := s.threshold p a
  let s := s.advance t
  let bad := s.c46 p.items p.form p.mask p.site
  if !p.system && !p.anyApplied && !bad.isEmpty then s.endCommit p 2 46 bad.length
  else
    let s := if p.system then
        { s with cfg := { s.cfg with epoch := (match s.cfg.system with | some sys => sys.epoch | none => s.cfg.epoch) } }
      else s
    let (s, p) := s.applyStarts { p with refDone := true, moment := t }
    let at_ := fun kv => match s.homeSite p kv with
      | none => !s.mustWait p kv
      | some k => !isBusySite (s.site k) && !s.mustWait p kv
    s.applyItems p at_ t

/-- An item of a pending commit that applies with the group of a site. -/
def State.isMine (s : State) (p : PendingCommit) (k : Nat) (kv : Nat × Nat) : Bool :=
  (match s.homeSite p kv with | some j => decide (j ∈ groupOf s.cv k) | none => false) && !s.mustWait p kv

/-- After the reference moment a site takes its items at its next boundary, or now where it has none (Table 8.8). -/
def State.commitSite (s : State) (p : PendingCommit) (a k : Nat) : State :=
  match s.nextBoundary k with
  | some b => if p.refDone && decide (s.threshold p a ≤ b) then ((s.advance b).settleWalks).applyItems p (s.isMine p k) b else s
  | none =>
    if !p.refDone || (s.site k).st == .drain || (s.site k).st == .armed then s
    else s.applyItems p (fun kv => s.homeSite p kv == some k && !s.mustWait p kv) s.now

/-- The commit due at the boundary at which a site leaves its walk applies there (R10, R181). -/
def State.commitHere (s : State) (k : Nat) : State :=
  let x := s.site (s.leadSite k)
  let b := x.epoch + x.acc
  match s.cfg.pending with
  | some p => if s.commitDueAt k b then ((s.advance b).settleWalks).applyItems p (s.isMine p k) b else s
  | none => s

/-- COMMIT_APPLY: the reference moment (no site), or the boundary at which a site takes its items (R10, R181). -/
def execCommitApply (site : Option (Fin 32)) (s : State) : Host.Outcome State Fault Refusal :=
  match s.cfg.pending with
  | none => .next s
  | some p =>
    match p.prepared with
    | none => .next s
    | some a =>
      if p.form = 1 then
        match s.segmentDue (s.leadSite p.site) with
        | some b =>
          let (s, p) := ((s.advance b).settleWalks).applyStarts { p with refDone := true, moment := b }
          .next (s.applyItems p (fun kv => match s.homeSite p kv with
            | some k => (decide (k ∈ groupOf s.cv p.site) || !isBusySite (s.site k)) && !s.mustWait p kv
            | none => !s.mustWait p kv) b)
        | none => match site with | some k => .next (s.commitSite p a k.val) | none => .next s
      else
        match site with
        | none =>
          let go := !p.system || (match s.cfg.system with | some sys => sys.gone | none => false)
          if p.refDone || !go then .next s else .next (s.commitReference p a)
        | some k => .next (s.commitSite p a k.val)

/-- A site has reached IDLE: it takes the items it still waits for, one that came from DRAIN no sooner than the reference moment; a
segment-boundary commit whose site never entered X ends with TIMEOUT (R181, R183). -/
def State.commitIdle (s : State) (k : Nat) (drained : Bool) : State :=
  match s.cfg.pending with
  | none => s
  | some p =>
    if p.form = 1 ∧ !p.refDone then
      if p.site ≠ k then s
      else if p.prepared.isSome then s.endCommit p 12 47 1
      else { s with cfg := { s.cfg with pending := some { p with lapsed := true } } }
    else if p.prepared.isSome && (p.refDone || (!drained && !p.system && p.mask.testBit k)) then
      s.applyItems p (fun kv => s.homeSite p kv == some k && !s.mustWait p kv) s.now
    else s

/-! ### COMMIT and ABANDON -/

/-- COMMIT at its engine: it begins, or waits while an earlier commit is pending (R180). -/
def engineCommit (t : Task) (s : State) : State :=
  match s.cfg.pending with
  | some _ => s
  | none => s.beginLocal t

/-- COMMIT without the SYSTEM flag. -/
def execCommit (h : Hdr) (form budget site mask entry secs tu : Nat) (s : State) : Host.Outcome State Fault Refusal :=
  .next (serve h (.commit form false budget site mask entry secs tu) engineCommit s)

/-- COMMIT with the SYSTEM flag: the instant form, on ring set 0 of a Postmaster (R186). -/
def execSystemCommit (h : Hdr) (budget mask secs tu : Nat) (s : State) : Host.Outcome State Fault Refusal :=
  .next (serve h (.commit 2 true budget 0 mask 0 secs tu) engineCommit s)

/-- A CANCEL or ABANDON meets a commit of its ring set: the state, and whether the commit ended (R185, R187). A system commit on
its Postmaster before GO is aborted; after GO it runs to its end, as where an item has applied (DESIGN CHOICE,
notes/assumptions/72.md). A device that has voted READY waits for GO or ABORT; one that has not votes REFUSE and keeps the commit until
ABORT comes, so that the outcome is posted and the ABORT goes on. -/
def State.cancelPending (s : State) (p : PendingCommit) : State × Bool :=
  if p.anyApplied then (s, false)
  else if p.system then
    match s.cfg.system with
    | some sys =>
      if sys.gone then (s, false)
      else if p.task.isSome then (s.dropSystem 1 0 0, true)
      else if sys.voted then (s, false)
      else
        let s := { s with cfg := { s.cfg with system := some { sys with refused := s.ownId :: sys.refused } } }
        ((s.endCommit p 1 0 0).send msgRefuse 0 (s.ownId + 2 ^ 16 * 48), true)
    | none => (s.endCommit p 1 0 0, true)
  else (s.endCommit p 1 0 0, true)

/-- ABANDON at its engine: COMMITs of the ring set that wait end, its pending commit ends where it still can, and the draft is
discarded (R171, R185). -/
def engineAbandon (t : Task) (s : State) : State :=
  let rs := t.hdr.rs.val
  let waiting := s.so.tasks.filter (fun u => u.hdr.rs.val == rs && waitsToBegin s.cfg.pending s.cfg.system u)
  let s := waiting.foldl (fun s u => s.complete u 1 (s.commitResult 0 0)) s
  let drop := fun (s : State) => ({ s with cfg := { s.cfg with drafts := tset [] s.cfg.drafts rs [] } }).setOutcome t.id 0 0
  match s.cfg.pending with
  | some p => if p.rs = rs then (let (s', ended) := s.cancelPending p; if ended then drop s' else s') else drop s
  | none => drop s

/-- ABANDON. -/
def execAbandon (h : Hdr) (s : State) : Host.Outcome State Fault Refusal := .next (serve h .abandon engineAbandon s)

/-! ### Messages of a system commit -/

/-- PREPARE reaches this device: it goes on down the tree, and the check and preparation begin when the COMMIT server takes their task
(R186, R267). Without a free slot the frame waits. -/
def execPrepare (secs tu : Nat) (epoch : W32) (s : State) : Host.Outcome State Fault Refusal :=
  let i := instantOf secs tu
  let sys : SystemCommit := {
      instant := i, epoch := epoch.toNat, voted := false, readyDevs := [], refused := [], confirmed := [],
      gone := false, task := none, slot := some s.so.nextId }
  if s.cfg.system.isSome || s.freeSlots == 0 then .next s
  else
    let s := ({ s with cfg := { s.cfg with system := some sys } }).send msgPrepare toAll (time96 (i / tuPerSec) (i % tuPerSec) + 2 ^ 96 * epoch.toNat)
    .next (s.takeCourier (.commit 2 true 0 0 (2 ^ 32 - 1) 0 secs tu) engineSystemPart)

/-- READY from a device below (R186). -/
def execReady (dev : BitVec 10) (s : State) : Host.Outcome State Fault Refusal :=
  match s.cfg.system with
  | none => .next s
  | some sys =>
    .next ({ s with cfg := { s.cfg with system := some { sys with readyDevs := dev.toNat :: sys.readyDevs } } }).voteCheck

/-- REFUSE from a device below: a Branch forwards it, the Postmaster will send ABORT (R186). -/
def execRefuse (dev : BitVec 10) (code : Nat) (s : State) : Host.Outcome State Fault Refusal :=
  match s.cfg.system with
  | none => .next s
  | some sys =>
    let s := { s with cfg := { s.cfg with system := some { sys with refused := dev.toNat :: sys.refused } } }
    .next (if sys.task.isSome then s else s.send msgRefuse 0 (dev.toNat + 2 ^ 16 * code))

/-- GO: the commit will apply at its instant (R186). -/
def execGo (s : State) : Host.Outcome State Fault Refusal :=
  match s.cfg.system with
  | some sys =>
    if sys.voted && !sys.gone then
      .next (({ s with cfg := { s.cfg with system := some { sys with gone := true } } }).send msgGo toAll 0)
    else .next s
  | none => .next s

/-- ABORT: nothing changes; the outcome goes to the event ring (R186, R187). -/
def execAbort (s : State) : Host.Outcome State Fault Refusal :=
  match s.cfg.system with
  | some sys => if sys.gone then .next s else .next ((s.send msgAbort toAll 0).dropSystem 2 48 0)
  | none => .next s

/-- A device confirms that its last item has applied (R186, R187). -/
def execSystemCommitConfirm (dev : BitVec 10) (s : State) : Host.Outcome State Fault Refusal :=
  match s.cfg.system with
  | some sys =>
    let s := { s with cfg := { s.cfg with system := some { sys with confirmed := dev.toNat :: sys.confirmed } } }
    if sys.task.isSome then .next s.confirmCheck else .next (s.send msgConfirm 0 dev.toNat)
  | none => .next (if s.role = 2 then s.send msgConfirm 0 dev.toNat else s)

/-- VOTE_DEADLINE: V = I - L_sys - 16 ns comes at the Postmaster before every device has voted READY (R186). -/
def execVoteDeadline (s : State) : Host.Outcome State Fault Refusal :=
  match s.cfg.system with
  | some sys =>
    if sys.task.isNone || sys.gone then .next s
    else
      let s := s.advance (rootOfPtu s.ptu (sys.instant - s.tree.lsys - lead16))
      let missing := s.votersBelow.filter (fun d => !answeredBy s.tree.nodes sys.readyDevs d || decide (d ∈ sys.refused))
      .next (s.dropSystem 2 48 (max 1 missing.length))
  | none => .next s

/-- SYSTEM_COMMIT_LOST: a device that has voted READY holds neither GO nor ABORT at I - 16 ns: it applies nothing and leaves the
commit epoch (R187). -/
def execSystemCommitLost (s : State) : Host.Outcome State Fault Refusal :=
  match s.cfg.system with
  | some sys =>
    if sys.task.isSome || !sys.voted || sys.gone then .next s
    else
      let s := s.advance (rootOfPtu s.ptu (sys.instant - lead16))
      let s := { s with tree := { s.tree with inEpoch := false } }
      .next ((s.fault 37 (sys.epoch % 2 ^ 32)).dropSystem 12 0 0)
  | none => .next s

/-- CONFIRMATION_DEADLINE: I + 1 s comes before every device has confirmed (R187). -/
def execConfirmationDeadline (s : State) : Host.Outcome State Fault Refusal :=
  match s.cfg.system with
  | some sys =>
    if sys.task.isNone || !sys.gone then .next s
    else
      let s := s.advance (rootOfPtu s.ptu (sys.instant + tuPerSec))
      let missing := (s.ownId :: s.votersBelow).filter (fun d => !decide (d ∈ sys.confirmed))
      let s := { s with cfg := { s.cfg with system := none } }
      let s := s.commitDone sys.task 6 0 missing.length
      .next (((s.systemEvent 6).settleAbandons 0).nextCommit)
  | none => .next s

end Sys2Proof.Machine
end

