-- ==== Sys2Proof/Machine/Survey.lean ====
section
/-! DEFINITION. Eye surveys and the PE port's plays (R163 to R165, R168, R461). -/

namespace Sys2Proof.Machine

/-! ### Surveys -/

/-- Time points of a survey, and points in all. -/
def timePoints (v : Survey) : Nat := surveyOffsets v.oFirst v.oLast v.oStep
def allPoints (v : Survey) : Nat := v.levels * timePoints v

/-- Channels of a survey, ascending. -/
def surveyChans (v : Survey) : List Nat := bitsOf 128 v.channels

/-- Groups of a survey's channels, ascending. -/
def surveyGroups (v : Survey) : List Nat := dedup ((surveyChans v).map (· / 8))

/-- Replace a site's survey by what it has become: surveys are known by their task. -/
def putSurvey (x : Site) (v : Survey) : Site := { x with surveys := x.surveys.map (fun u => if u.task = v.task then v else u) }

/-- Write the counts of the point under way to the buffer: 8 bytes per point, channels ascending, points in grid order. -/
def State.writePoint (s : State) (v : Survey) : State :=
  (List.range (surveyChans v).length).foldl (fun s i =>
    let x := s.chan ((surveyChans v).getD i 0)
    s.hostWrite (v.bufAddr + 8 * (i * allPoints v + v.points)) 8 (x.svCompared % 2 ^ 32 + 2 ^ 32 * x.svMismatch)) s

/-- Clear the point counters of a survey's channels. -/
def State.clearPoint (s : State) (v : Survey) : State :=
  (surveyChans v).foldl (fun s c => s.modChan c (fun x => { x with svCompared := 0, svMismatch := 0 })) s

/-- The survey's claim word for a level's script: parameter, level, survey. -/
def State.levelParam (s : State) (v : Survey) (level : Nat) : Nat :=
  readLE s.host (v.paramAddr + 2 * level) 2 + 2 ^ 16 * level + 2 ^ 24 * v.task

/-- A level's scripts are to play in each surveyed group: how many play (R164). -/
def State.wantLevel (s : State) (v : Survey) (level : Nat) : State × Nat :=
  let gs := (surveyGroups v).filter (fun g => scriptCount (s.script g 3) != 0)
  (gs.foldl (fun s g => s.wantScript g 3 (s.levelParam v level)) s, gs.length)

/-- The surveys of every site, with their sites. -/
def State.allSurveys (s : State) : List (Nat × Survey) := (List.range 32).flatMap (fun k => (s.site k).surveys.map (fun v => (k, v)))

/-- LEVEL_MASK ends on channels that no other survey masks (R164). -/
def State.unmask (s : State) (channels : Nat) : State :=
  (bitsOf 128 channels).foldl (fun s c =>
    if s.allSurveys.any (fun kv => kv.2.levelMask && kv.2.level != 0 && kv.2.channels.testBit c)
        || (List.range 32).any (fun k => (s.site k).masks.any (fun m => m.2.1.testBit c)) then s
    else s.modChan c (fun y => { y with maskedLevel := false })) s

/-- Level 0's script of an ended survey has played in one more of its groups: with the last, its LEVEL_MASK ends (R164). -/
def State.maskPlayed (s : State) (task : Nat) : State :=
  match (List.range 32).find? (fun k => (s.site k).masks.any (fun m => m.1 == task)) with
  | none => s
  | some k =>
    match (s.site k).masks.find? (fun m => m.1 == task) with
    | none => s
    | some (_, channels, n) =>
      let rest := (s.site k).masks.filter (fun m => m.1 != task)
      if n ≤ 1 then (s.modSite k (fun x => { x with masks := rest })).unmask channels
      else s.modSite k (fun x => { x with masks := (task, channels, n - 1) :: rest })

/-- A survey ends: its buffer holds every finished point, and the counts of an unfinished one; level 0's script plays again where
another level's has (R164, R165; the script after an early end is a DESIGN CHOICE, notes/assumptions/24.md). -/
def State.endSurvey (s : State) (k : Nat) (v : Survey) (status : Nat) : State :=
  let s := s.catchUp k
  let s := if v.points < allPoints v then s.writePoint v else s
  let s := s.modSite k (fun x => { x with surveys := x.surveys.filter (fun u => u.task != v.task) })
  let s := if v.level = 0 then s
    else
      let (s, n) := s.wantLevel v 0
      if !v.levelMask then s
      else if n = 0 then s.unmask v.channels
      else s.modSite k (fun x => { x with masks := x.masks ++ [(v.task, v.channels, n)] })
  s.completeId v.task status (v.points + 2 ^ 32 * (surveyChans v).length)

/-- The site leaves RUN: its surveys end with CANCELLED (R165). -/
def State.endSurveys (s : State) (k : Nat) : State := (s.site k).surveys.foldl (fun s v => s.endSurvey k v 1) s

/-- The grid keeps within R38 and R161 on every period that the site can reach: P/8 where a channel is in SB with ES on, P/2 otherwise. -/
def State.gridFits (s : State) (k channels : Nat) (oFirst oLast : Int) (oStep : Nat) : Bool :=
  let last := oFirst + ((surveyOffsets oFirst oLast oStep : Int) - 1) * oStep
  (reachable s.cv k).all (fun i =>
    let p := cvPeriod s.cv k (cvSeg s.cv i)
    (bitsOf 128 channels).all (fun c =>
      let lim : Int := (if chanOn s.cv k c mSB && chanOn s.cv k c mES then p / 8 else p / 2 : Nat)
      decide (-lim ≤ oFirst) && decide (last ≤ lim)))

/-- EYE_SURVEY at its engine (R163, R165). -/
def engineEyeSurvey (site levels : Nat) (levelMask : Bool) (dwell channels : Nat) (oFirst oLast : Int)
    (oStep settle bufAddr paramAddr : Nat) (t : Task) (s : State) : State :=
  let cs := bitsOf 128 channels
  let x := s.site site
  let ref := siteOn s.cv site mST && channels.testBit (fld (cvTracking s.cv site) 0 7)
  if !s.gridFits site channels oFirst oLast oStep then s.complete t 3 0
  else if x.st != .run || ref
      || cs.any (fun c => !((s.members site).testBit c && chanOn s.cv site c mES) || (surveyOf x c).isSome) then s.complete t 4 0
  else
    let v : Survey := { task := t.id, levels := levels, levelMask := levelMask, dwell := dwell, channels := channels, oFirst := oFirst,
                        oLast := oLast, oStep := oStep, settle := settle, bufAddr := bufAddr, paramAddr := paramAddr, level := 0,
                        offset := oFirst, points := 0, counting := true, waiting := 0, settleDue := none }
    (s.setSite site { x with surveys := x.surveys ++ [v] }).clearPoint v

/-- EYE_SURVEY. -/
def execEyeSurvey (h : Hdr) (site levels : Nat) (levelMask : Bool) (dwell channels : Nat) (oFirst oLast : Int)
    (oStep settle bufAddr paramAddr : Nat) (s : State) : Host.Outcome State Fault Refusal :=
  .next (serve h (.eyeSurvey site levels levelMask dwell channels oFirst oLast oStep settle bufAddr paramAddr)
    (engineEyeSurvey site levels levelMask dwell channels oFirst oLast oStep settle bufAddr paramAddr) s)

/-- Every channel of a counting survey has reached DWELL. -/
def State.pointDone (s : State) (v : Survey) : Bool :=
  v.counting && (surveyChans v).all (fun c => decide (v.dwell ≤ (s.chan c).svCompared))

/-- SURVEY_POINT_END: at the vector boundary at which every surveyed channel has reached DWELL the point ends; the next offset or
level begins, or the survey completes (R163, R164). -/
def execSurveyPointEnd (site : Fin 32) (s : State) : Host.Outcome State Fault Refusal :=
  let k := site.val
  let s := if (s.site k).st == .run then s.catchUp k else s
  match (s.site k).surveys.find? s.pointDone with
  | none => .next s
  | some v =>
    let s := s.writePoint v
    let v := { v with points := v.points + 1 }
    if v.offset + (v.oStep : Int) ≤ v.oLast then
      .next ((s.modSite k (fun x => putSurvey x { v with offset := v.offset + (v.oStep : Int) })).clearPoint v)
    else if v.level + 1 < v.levels then
      let (s, n) := s.wantLevel v (v.level + 1)
      let due := if n = 0 then some (s.now + v.settle * tuPerUs) else none
      .next ((s.modSite k (fun x => putSurvey x
        { v with level := v.level + 1, offset := v.oFirst, counting := false, waiting := n, settleDue := due })).clearPoint v)
    else .next (s.endSurvey k v 0)

/-- SURVEY_SETTLE_ELAPSED: SETTLE has passed since the level's scripts ended; counting begins at the next vector boundary (R164). -/
def execSurveySettleElapsed (site : Fin 32) (s : State) : Host.Outcome State Fault Refusal :=
  match (s.site site.val).surveys.find? (fun v => !v.counting && v.waiting == 0 && v.settleDue.isSome) with
  | none => .next s
  | some v =>
    let s := s.advance (v.settleDue.getD 0)
    .next (s.modSite site.val (fun x => putSurvey x { v with counting := true, settleDue := none }))

/-! ### The PE port -/

/-- PE_SCRIPT_PLAY: a free port that no calibration phase claims takes the first claim and begins its script (R168, Table 8.4). A level
script other than level 0's begins LEVEL_MASK (R164). -/
def execPeScriptPlay (g : Fin 16) (s : State) : Host.Outcome State Fault Refusal :=
  let x := s.group g.val
  if portHeld x || s.phaseClaims g.val then .next s
  else
    match nextClaim x.peQueue with
    | none => .next s
    | some (slot, param) =>
      let v := s.script g.val slot
      let ts := scriptTransfers v (if slot = 3 then some (param % 2 ^ 16) else none)
      let s := s.setGroup g.val { x with
        peBusy := true, peSlot := slot, peQueue := x.peQueue.erase (slot, param), peParam := param
        peAt := s.now, peDiv := scriptDiv v, peTransfers := ts }
      let s := s.emit (.peScript g.val slot (scriptMode3 v) (scriptDiv v) ts)
      if slot = 3 ∧ fld param 16 8 ≠ 0 then
        match s.allSurveys.find? (fun kv => kv.2.task == param / 2 ^ 24) with
        | some (_, v) =>
          if v.levelMask then
            .next ((surveyChans v).foldl (fun s c => s.modChan c (fun y => { y with maskedLevel := true })) s)
          else .next s
        | none => .next s
      else .next s

/-- PE_SCRIPT_END: the moment at which a script has played its last transfer; a level script counts for its survey; once level 0's has played
in every group, LEVEL_MASK ends (R164, R461). -/
def execPeScriptEnd (g : Fin 16) (s : State) : Host.Outcome State Fault Refusal :=
  let x := s.group g.val
  if !x.peBusy then .next s
  else
    let s := s.advance (scriptEnd x)
    let s := s.setGroup g.val { x with peBusy := false, peLastEnd := time64 s.ptuNow }
    let s := s.rcAdd (aPecPlays g.val) 1
    if x.peSlot ≠ 3 then .next s
    else if fld x.peParam 16 8 = 0 then .next (s.maskPlayed (x.peParam / 2 ^ 24))
    else
      match s.allSurveys.find? (fun kv => kv.2.task == x.peParam / 2 ^ 24) with
      | some (k, v) =>
        let n := v.waiting - 1
        let due := if n = 0 then some (s.now + v.settle * tuPerUs) else none
        .next (s.modSite k (fun y => putSurvey y { v with waiting := n, settleDue := due }))
      | none => .next s

end Sys2Proof.Machine
end

