-- ==== Sys2Proof/Machine/Sequencer.lean ====
section
/-! DEFINITION. The pattern sequencers (chapter 4): ARM, RUN and STOP, preparation and epoch, vectors and hold slots, decisions,
passes, starve, drain and the fault reactions on sites. -/

namespace Sys2Proof.Machine

/-! ### Completions of a run (R107, Tables 4.7 and 4.8) -/

/-- The RUN result. -/
def runResult (vectors seg reason cond first flagged : Nat) : Nat :=
  (if vectors = 0 then 2 ^ 52 - 1 else (vectors - 1) % 2 ^ 52) + 2 ^ 64 * (seg % 65536) + 2 ^ 80 * reason + 2 ^ 88 * cond
    + 2 ^ 96 * first + 2 ^ 112 * min flagged 0xFFFF

/-- The conditions of a site's run: bit 0 where a segment stays CHECK_VALUE_MISMATCH, bit 1 where one is SUSPECT (R104). -/
def runConditions (x : Site) : Nat :=
  b2n (x.mismatch.any (fun i => !decide (i ∈ x.suspect))) + 2 * b2n (!x.suspect.isEmpty) + fld x.conditions.toNat 2 6 * 4

/-- The status of a run by Table 4.7. -/
def runStatus (faulted : Bool) (x : Site) : Nat :=
  let c := runConditions x
  if faulted || x.endReason = 5 || x.endReason = 6 then 6
  else if x.endReason = 4 then 7
  else if x.endReason = 7 then 12
  else if c.testBit 2 then 14
  else if x.endReason = 1 ∨ x.endReason = 2 ∨ x.endReason = 3 then 1
  else if c.testBit 1 then 11
  else if c.testBit 0 then 10
  else if c.testBit 3 then 9
  else 0

/-- The run of a site completes, where its record holds one. -/
def State.completeRun (s : State) (k : Nat) (faulted : Bool) : State :=
  let x := s.site k
  match x.req with
  | none => s
  | some r =>
    let (n, seg) := x.left.getD (x.vec, x.seg)
    let s := s.setSite k { x with req := none }
    s.completeId r.task (runStatus faulted x)
      (runResult n seg x.endReason (runConditions x) (x.firstFlagged.getD 0xFFFF) x.flagged)

/-- STOPs of a site that wait for their boundary complete OK. -/
def State.completeStops (s : State) (k : Nat) : State :=
  let ts := s.so.tasks.filter (fun t => t.st == .inService && (match t.op with | .stop j => j == k | _ => false))
  let s := s.modSite k (fun x => { x with stopReq := none })
  ts.foldl (fun s t => s.complete t 0 0) s

/-- ARMs of a site's group in their prepare form that are in service end. -/
def State.completeArms (s : State) (w status : Nat) : State :=
  let ts := s.so.tasks.filter (fun t => t.st == .inService
    && (match t.op with | .arm j 0 _ => s.leadSite j == w | _ => false))
  ts.foldl (fun s t => s.complete t status 0) s

/-! ### Leaving a walk and reaching IDLE -/

/-- The entry in force at the walk's next vector: that of the segment it goes on in, or enters; the last one where the run ends. -/
def State.nextEntry (s : State) (x : Site) : Nat :=
  if !x.started || decide (x.v < segLength x.entry) then s.curEntry x
  else if x.jump then cvSeg s.cv (segTarget x.entry)
  else if x.pass < segRepeat x.entry then x.entry
  else match afterSegment x.entry x.stack with | some (n, _) => cvSeg s.cv n | none => x.entry

/-- A site leaves the walk: what it applied, where, and t_close (R138). -/
def State.leaveWalk (s : State) (k reason : Nat) : State :=
  let x := s.site (s.leadSite k)
  let p := cvPeriod s.cv k (s.nextEntry x)
  s.modSite k (fun y => { y with
    endReason := reason
    left := some (y.left.getD (x.vec, x.seg))
    tClose := some (y.tClose.getD ((x.acc : Int) + 4 * p)) })

/-- A site reaches IDLE: its pigeonholes are freed, its device leaves a match group with its last site, and a commit that waits for
it applies (R95, R181, R330). -/
def State.toIdle (s : State) (k : Nat) : State :=
  let drained := (s.site k).st == .drain
  let s := s.modSite k (fun x => { x with st := .idle, resident := [], prepared := false, epochAt := none })
  ((s.freeHoles.matchIdle k).commitIdle k drained)

/-- The last of a run's strobes, stamps and slots: everything pending is placed and judged, and the slots latch (R150). -/
def State.finishRun (s : State) (k : Nat) : State :=
  let s := s.flushSite k
  let s := (s.siteChans k).foldl (fun s c => s.settleStamps k c) s
  s.closeSlots k

/-- Scripts of a slot play in every group of a site (Table 8.4). -/
def State.siteScripts (s : State) (k slot : Nat) : State := (s.siteGroups k).foldl (fun s g => s.wantScript g slot 0) s

/-! ### Flags of a pass (R104, R106) -/

/-- The pass under way is flagged, for every site that walks; a pass counts once. -/
def State.flagPass (s : State) (w bit : Nat) (f : Site → Site) : State :=
  let x := s.site w
  let seg := x.seg
  let first := !x.passPoison
  let s := (s.walkers w).foldl (fun s m => s.modSite m (fun y =>
    let y := f { y with conditions := y.conditions ||| BitVec.ofNat 8 bit }
    if first then { y with flagged := satAdd 16 y.flagged 1, firstFlagged := some (y.firstFlagged.getD seg) } else y)) s
  s.modSite w (fun y => { y with passPoison := true })

/-- The frank of a pass that has ended is compared where CHECK asks for it (R95, R104). -/
def State.passCheck (s : State) (w : Nat) : State :=
  let x := s.site w
  let e := x.entry
  if !x.started || x.checked || decide (x.v < segLength e) || !segCheck e || !fetches s.cv w then s
  else
    let frank := if !segResident e then ~~~ x.passFrank
      else match s.holeOf (segLine e) (segLength e) with
        | some h => holeFrank h (segLines s.cv w e)
        | none => s.linesFrank (segLine e) (segLines s.cv w e)
    let s := s.modSite w (fun y => { y with checked := true })
    if frank.toNat = segFrank e then s
    else
      let fresh := !decide (x.seg ∈ x.mismatch)
      let s := s.flagPass w 1 (fun y => { y with mismatch := if x.seg ∈ y.mismatch then y.mismatch else x.seg :: y.mismatch })
      let s := s.modSite w (fun y => { y with
        mismatch := if x.seg ∈ y.mismatch then y.mismatch else x.seg :: y.mismatch
        rereads := if fresh then y.rereads ++ [(x.seg, segFrank e)] else y.rereads })
      (s.walkers w).foldl (fun s m => s.fault 36 (m + 2 ^ 8 * x.seg)) s

/-- A site stands at a boundary of its walk: strobes that no later vector can touch are judged, stamps find their vectors, and the
result-space reads that await the boundary take their snapshot. A strobe that a stop-on-fail at this boundary may rest on is judged
whatever later vectors might do to it (R120). -/
def State.siteBoundary (s : State) (w m : Nat) : State :=
  let x := s.site w
  let force : Int := if fld (cvResponse s.cv m) 0 2 = 0 then -farTime else (x.acc : Int) - 64000 + 1
  let s := s.settleTo m x.acc (judgeLimit x ((s.now : Int) - x.epoch)) force
  let s := (s.siteChans m).foldl (fun s c => s.settleStamps m c) s
  s.snapshots m

/-- A site goes to DRAIN (Table 4.6): the commit due at the boundary applies (R10). The run of a broadcast member in HOLD has ended
with its hold reaction (R67, R121). -/
def State.toDrain (s : State) (k reason : Nat) : State :=
  let w := s.leadSite k
  let s := ((s.passCheck w).commitHere k).siteBoundary w k
  let s := s.leaveWalk k (if (s.site k).st == .hold && cvBgroup s.cv k != 0 then 6 else reason)
  let s := s.modSite k (fun x => { x with st := .drain })
  ((s.completeStops k).endSurveys k).siteScripts k 2

/-! ### Preparation and starting (R95, R100, R103, R371) -/

/-- A group needs recalibration before its use: it is STALE with AUTO_STALE set, or a CALIBRATE with DEFER names it (R371). -/
def State.needsRecal (s : State) (g : Nat) : Bool :=
  let x := s.group g
  (x.isStale && (s.reg aCalCtrl).testBit 1) || x.deferred

/-- Preparation of a group's walk for a start segment begins: its prefetch, its STALE groups (R95, R371). -/
def State.beginPrep (s : State) (w seg : Nat) : State :=
  let ms := groupOf s.cv w
  let s := ms.foldl (fun s m => s.modSite m (fun x => { x with st := .armed })) s
  let walker := if isStream s.cv w then some (newWalker s.walkCv w seg [] []) else none
  let s := s.modSite w (fun x => { x with prepared := false, prepSeg := seg, epochAt := none, prefetch := [], walker := walker })
  let gs := dedup (ms.flatMap s.siteGroups)
  gs.foldl (fun s g =>
    let x := s.group g
    if s.needsRecal g && !x.queue.any (fun p => p.phase == 0) then
      s.setGroup g { x with deferred := false, queue := x.queue ++ [{ phase := 0, inPlace := false, started := false, task := none }] }
    else s) s

/-- A direct, loopback or fixture phase, or a self-test loop, holds the group (R364, R382). -/
def groupBusy (x : Group) : Bool := x.loopRun || x.queue.any (fun p => p.started && !p.inPlace)

/-- The start condition is not honoured: a hold reaction lasts, or calibration holds a group (R100, R364, R382). -/
def State.startBlocked (s : State) (w : Nat) : Bool :=
  (groupOf s.cv w).any (fun m => s.siteHeld m || (s.siteGroups m).any (fun g => groupBusy (s.group g)))

/-- A group of the site has its SLEEP bit set (R371). -/
def State.asleepSite (s : State) (k : Nat) : Bool :=
  (groupOf s.cv k).any (fun m => (s.siteGroups m).any (fun g => (s.reg (aCalGroupCtrl g)).testBit 0))

/-- Every member of the group is IDLE or ARMED. -/
def State.startable (s : State) (k : Nat) : Bool :=
  (groupOf s.cv k).all (fun m => (s.site m).st == .idle || (s.site m).st == .armed)

/-- An ARMED group ends without an epoch: its RUN and ARMs complete, its members go to IDLE (Table 4.6). -/
def State.abortArmed (s : State) (w reason armStatus : Nat) (faulted : Bool) : State :=
  let x := s.site w
  let s := s.completeArms w armStatus
  let s := match x.req with
    | some r =>
      let y : Site := { x with endReason := reason, conditions := 0, mismatch := [], suspect := [] }
      (s.modSite w (fun x => { x with req := none, prefetch := [], walker := none })).completeId r.task (runStatus faulted y)
        (runResult 0 r.seg reason 0 0xFFFF 0)
    | none => s.modSite w (fun x => { x with prefetch := [], walker := none })
  (s.membersIn w (· == .armed)).foldl (fun s m => s.toIdle m) s

/-- A prepared RUN whose instant has already passed ends with TIMEOUT (Table 4.6). -/
def State.startMissed (s : State) (w : Nat) : State :=
  let x := s.site w
  match x.req, s.epochOf w with
  | some r, some b => if r.start = 2 ∧ b < s.now then s.abortArmed w 7 0 false else s
  | _, _ => s

/-- RUN at its engine (R103, R156, R175). -/
def engineRun (site start input : Nat) (falling : Bool) (seg secs tu : Nat) (t : Task) (s : State) : State :=
  let w := s.leadSite site
  let x := s.site w
  if !s.startable site || x.req.isSome || s.asleepSite site || ((groupOf s.cv site).any (fun m => siteOn s.cv m mCS) && start != 2)
      || !decide (seg ∈ startList s.cv site) then s.complete t 4 0
  else
    let r : RunReq := { task := t.id, site := site, start := start, input := input, falling := falling, seg := seg, secs := secs, tu := tu }
    let keep := x.st == .armed && x.prepSeg == seg
    let s := s.modSite w (fun x => { x with req := some r })
    if keep then (if x.prepared then s.startMissed w else s) else s.beginPrep w seg

/-- RUN. -/
def execRun (h : Hdr) (site start input : Nat) (falling : Bool) (seg secs tu : Nat) (s : State) :
    Host.Outcome State Fault Refusal :=
  .next (serve h (.run site start input falling seg secs tu) (engineRun site start input falling seg secs tu) s)

/-- ARM at its engine, in both forms (R84, R103, R175, R371). -/
def engineArm (site form seg : Nat) (t : Task) (s : State) : State :=
  let w := s.leadSite site
  let x := s.site w
  let live := fun (y : Site) => y.st == .run || y.st == .hold
  if form = 1 then
    if live (s.site site) || live x then
      (s.modSite w (fun x => { x with latches := setLatch x.latches 34 ((s.now : Int) - x.epoch) })).complete t 0 0
    else s.complete t 4 0
  else if !s.startable site || x.req.isSome || s.asleepSite site || !decide (seg ∈ startList s.cv site) then s.complete t 4 0
  else if x.st == .armed && x.prepSeg == seg then (if x.prepared then s.complete t 0 0 else s)
  else s.beginPrep w seg

/-- ARM in its prepare form. -/
def execArm (h : Hdr) (site seg : Nat) (s : State) : Host.Outcome State Fault Refusal :=
  .next (serve h (.arm site 0 seg) (engineArm site 0 seg) s)

/-- ARM in its request form: the host-request latch. -/
def execArmHostRequest (h : Hdr) (site : Nat) (s : State) : Host.Outcome State Fault Refusal :=
  .next (serve h (.arm site 1 0) (engineArm site 1 0) s)

/-- A STOP reaches a site (Table 4.6, R102): a walk stops at a boundary to come, an ARMED site's group returns to IDLE. -/
def State.stopSite (s : State) (site : Nat) : State :=
  match (s.site site).st with
  | .run => s.modSite site (fun x => { x with stopReq := some (x.stopReq.getD (s.now, 1)) })
  | .hold => s.modSite site (fun x => { x with stopReq := some (x.stopReq.getD (s.now, 1)) })
  | .armed => s.abortArmed (s.leadSite site) 1 1 false
  | .starved => (s.finishRun site).toIdle site
  | _ => s

/-- STOP at its engine: it waits for the boundary where the site walks. -/
def engineStop (site : Nat) (t : Task) (s : State) : State :=
  let walks := (s.site site).st == .run || (s.site site).st == .hold
  if walks then s.stopSite site else (s.stopSite site).complete t 0 0

/-- STOP. -/
def execStop (h : Hdr) (site : Nat) (s : State) : Host.Outcome State Fault Refusal :=
  .next (serve h (.stop site) (engineStop site) s)

/-- PREPARATION_COMPLETE: the pigeonholes and the prefetch are filled, the recalibrations that the preparation includes have ended; ARMs complete, and an
instant already passed ends the RUN (R95, R103, R371). -/
def execPreparationComplete (site : Fin 32) (s : State) : Host.Outcome State Fault Refusal :=
  let w := s.leadSite site.val
  let x := s.site w
  let full := match x.walker with | some k => k.ended || decide (prefetchLines ≤ x.prefetch.length) | none => true
  let gs := dedup ((groupOf s.cv w).flatMap s.siteGroups)
  let waits := gs.any (fun g => (s.group g).queue.any (fun p => p.phase == 0 && p.task.isNone))
  if x.st != .armed || x.prepared || !full || waits then .next s
  else
    let s := (s.modSite w (fun x => { x with prepared := true, prepAt := s.now })).holdHoles w
    .next ((s.completeArms w 0).startMissed w)

/-! ### The epoch (R85, R103, R109, R111, R119, R136, R144, R149, R159) -/

/-- A channel at its site's epoch. -/
def chanEpoch (cv : Tab Nat) (k c : Nat) (x : Chan) : Chan :=
  { x with
    failCount := 0, firstFail := none, invalid := 0, last := none, pmDead := 0, pmDrop := 0, pmLast := none, pmNum := 0, pmVec := none
    pmWait := [], pmHist := [], expect := [], slip := 0, alignStatus := 0, alignBad := 0, alignSeen := 0
    searchLen := if chanOn cv k c mSB && (cvSbWord cv c).testBit 5 then fld (cvSbWord cv c) 6 13 else 0, esCompared := 0, esMismatch := 0
    gen := if chanOn cv k c mAO then genLoad (cvGen cv c) else x.gen }

/-- A site at its epoch. -/
def siteEpoch (cv : Tab Nat) (k b seg : Nat) (stale : Bool) (x : Site) : Site :=
  { Site.reset with
    st := .run, epoch := b, seg := seg, prefetch := x.prefetch, walker := x.walker, resident := x.resident, marks := x.marks
    passFrank := 0xFFFFFFFF, conditions := if stale then 8 else 0
    track := { Track.reset with tInt := 256 * toSigned 32 (fld (cvTracking cv k) 32 32) } }

/-- A member of the group starts at root TU `b`. -/
def State.startSite (s : State) (k b seg : Nat) : State :=
  let cv := s.cv
  let stale := (s.siteGroups k).any (fun g => (s.group g).isStale)
  let s := s.modSite k (siteEpoch cv k b seg stale)
  let s := if s.ptu.degraded && siteOn cv k mCS then s.modSite k (fun x => { x with conditions := x.conditions ||| 16 }) else s
  let s := (cvChans cv k).foldl (fun s c => s.modChan c (chanEpoch cv k c)) s
  let s := (s.siteSlots k).foldl (fun s i => s.setSlot i (slotEpoch (s.slot i) (pairReport (s.pairWord i)))) s
  let s := (s.siteEpochPair k 0).matchEpoch k
  let s := (cvChans cv k).foldl (fun s c => s.epochStamps k c) s
  s.siteScripts k 1

/-- RUN_EPOCH: the epoch of a prepared RUN comes: S(0) is set and every ARMED member enters RUN; where a reaction or calibration
holds the start off, an instant is missed and a trigger is awaited afresh (R100, R103, R364). -/
def execRunEpoch (site : Fin 32) (s : State) : Host.Outcome State Fault Refusal :=
  let w := s.leadSite site.val
  match (s.site w).req, s.epochOf w with
  | some r, some b =>
    if (s.site w).st != .armed then .next s
    else if s.startBlocked w then
      if r.start = 2 then .next ((s.advance b).abortArmed w 7 0 false)
      else .next (s.modSite w (fun x => { x with epochAt := none }))
    else if s.referenceDue b || s.commitDueAt w b || (s.segmentDue w).isSome then .next s
    else
      let s := s.advance b
      let ms := s.membersIn w (· == .armed)
      let s := ms.foldl (fun s m => s.startSite m b r.seg) s
      let s := s.modSite r.site (fun x => { x with req := some r })
      .next (s.release r.task)
  | _, _ => .next s

/-! ### Vectors and hold slots (R26, R60, R79, R92, R101) -/

/-- The latest boundary that a STOP or a reaction leaves to the walk: 64 ns after it (R11, R102). -/
def reach64 : Nat := 512000

/-- Something due on a member must act before the boundary at root TU `b` is passed: a reaction, a STOP, a stop-on-fail (R10). -/
def State.actsFirst (s : State) (k b acc : Nat) : Bool :=
  let x := s.site k
  (match s.reactionDue k 4 5 with | some t => decide (t + reach64 < b) | none => false)
    || (x.st == .run && (match s.reactionDue k 3 3 with | some t => decide (t + reach64 < b) | none => false))
    || (match x.stopReq with | some (t, _) => decide (t + reach64 < b) | none => false)
    || (match x.failStop with | some t => decide (t ≤ (acc : Int)) | none => false)

/-- A decision that its time has come for is still to be taken (R201, R330). -/
def State.decisionDue (s : State) (w b : Nat) : Bool :=
  let x := s.site w
  match x.tdp with
  | some (t, _) =>
    !x.decided && segJumps x.entry &&
      (if segSource x.entry = 20 ∧ x.sysMatch.isSome then decide (x.epoch + t + s.siteH w ≤ b) else decide (x.epoch + t + 64000 ≤ b))
  | none => false

/-- The walk may not pass its next boundary yet. -/
def State.walkHeld (s : State) (w : Nat) : Bool :=
  let x := s.site w
  let b := x.epoch + x.acc
  (s.walkers w).any (fun m => s.actsFirst m b x.acc) || s.decisionDue w b || s.referenceDue b || s.commitDueAt w b
    || (s.segmentDue w).isSome

/-- A boundary of the walk is reached: earlier edges are placed and judged, stamps find their vectors, snapshots are taken. -/
def State.boundary (s : State) (w : Nat) : State :=
  let x := s.site w
  let s := s.advance (x.epoch + x.acc)
  (s.walkers w).foldl (fun s m => s.siteBoundary w m) s

/-- Marks that no stamp can need any more are forgotten. -/
def pruneMarks (acc : Nat) (ms : List VecMark) : List VecMark := ms.filter (fun m => decide (acc ≤ m.start + 6 * m.period + 600000))

/-- A hold slot: one period of the segment in force, no vector (R101). -/
def State.holdSlot (s : State) (k : Nat) : State :=
  let x := s.site k
  let p := cvPeriod s.cv k (if x.ord = 0 then s.curEntry x else x.entry)
  let tau := if siteOn s.cv k mST then trackT x.track else 0
  let m : VecMark := { ord := x.ord, start := x.acc, frame := frameOf x.acc, period := p, tau := tau, vec := x.vec, hold := true }
  s.setSite k { x with recent := m :: pruneMarks x.acc x.recent, acc := x.acc + p, ord := x.ord + 1 }

/-- A segment-trigger mark of a site (R92, R196). -/
def State.segmentMark (s : State) (k b : Nat) : State :=
  let st := fld s.setup (4 * k) 4
  let y := s.stream st
  if !s.setup.testBit (128 + k) then s
  else if y.isOpen then s.modSite k (fun x => { x with marks := x.marks ++ [markRecord 17 b y.epoch] })
  else s.modStream st (fun y => { y with notOpen := y.notOpen + 1 })

/-- Pulses and marks at the first vector of a pass that pulses (R92). -/
def State.passTriggers (s : State) (w b : Nat) : State :=
  let x := s.site w
  let mask := segTrig x.entry
  if mask = 0 ∨ (x.pass ≠ 0 ∧ !segEvery x.entry) then s
  else
    let ms := s.walkers w
    let s := s.causeWhere 1 b (fun l r => mask.testBit l && ms.any (fun m => (routeSites r).testBit m))
    ms.foldl (fun s m => s.segmentMark m b) s

/-- One member's channels take the vector: T, edges and strobes, the record of what is still to be judged. -/
def State.issueSite (s : State) (w k e period : Nat) (d : BitVec 512) (bad : Bool) : State :=
  let cv := s.cv
  let x := s.site w
  let st := siteOn cv k mST
  let s := if st then s.modSite k (fun y => { y with track := trackTo y.track x.acc period }) else s
  let tau := if st then trackT (s.site k).track else 0
  let v : VecIn := { ord := x.ord, vec := x.vec, start := x.acc, period := period, entry := e, tau := tau }
  let r : VecRec := { vec := x.vec, seg := x.seg, pass := x.pass, capture := segCapture e, isMatch := segMatch e,
                      resp := fld (cvResponse cv k) 0 48, passId := x.passStart, left := [], fails := [], window := false, lastFail := 0 }
  let s := s.modSite k (fun y => { y with vecs := y.vecs ++ [r] })
  let cs := cvChans cv k
  let (s, left) := (List.range cs.length).foldl (fun (acc : State × Tab Nat) p =>
    let c := cs.getD p 0
    let code := if siteOn cv k mSV then codeAt cv w e x.v p d else 0
    let (s, n) := acc.1.issueChan k c v code bad
    (s, tset 0 acc.2 c n)) (s, [])
  let m : VecMark := { ord := x.ord, start := x.acc, frame := frameOf x.acc, period := period, tau := tau, vec := x.vec, hold := false }
  s.modSite k (fun y => closeVectors cv k { y with
    vecs := y.vecs.map (fun q => if q.vec = x.vec then { q with left := left } else q)
    recent := m :: pruneMarks x.acc y.recent })

/-- The walk moves on by one vector; every member's record follows it. -/
def State.stepWalk (s : State) (w e period : Nat) : State :=
  let x := s.site w
  let v := perLine s.cv w e
  let done := isStreamed s.cv w e && (x.v % v == v - 1 || x.v + 1 == segLength e)
  let ms := s.walkers w
  let y := { x with acc := x.acc + period, vec := x.vec + 1, ord := x.ord + 1, v := x.v + 1,
                    prefetch := if done then x.prefetch.drop 1 else x.prefetch }
  let s := s.setSite w y
  ms.foldl (fun s m => if m = w then s else s.modSite m (fun z =>
    { z with acc := y.acc, vec := y.vec, ord := y.ord, seg := y.seg, entry := y.entry, started := y.started })) s

/-- VECTOR_ISSUE: at the next boundary the walk issues a vector, or a hold slot in HOLD (R26, R79, R101). It issues nothing where
something else is due first (R10), the pass has ended, or the prefetch does not hold the line. -/
def execVectorIssue (site : Fin 32) (s : State) : Host.Outcome State Fault Refusal :=
  let w := s.leadSite site.val
  let x := s.site w
  let ms := s.walkers w
  if ms.isEmpty || s.walkHeld w then .next s
  else if ms.any (fun m => (s.site m).st == .hold) then .next ((s.boundary w).holdSlot w)
  else
    let e := s.curEntry x
    match s.curLine w with
    | none => .next s
    | some (d, bad) =>
      if segLength e ≤ x.v then .next s
      else if (s.boundary w).walkHeld w then .next (s.boundary w)
      else
        let b := x.epoch + x.acc
        let s := s.boundary w
        let s := if x.started then s else s.enterSegment w
        let s := s.modSite w (fun y => { y with started := true, entry := e })
        let s := if x.v = 0 then (s.modSite w (fun y => { y with passStart := y.ord })).passTriggers w b else s
        let period := cvPeriod s.cv w e
        let dp := segLength e - 1 - decisionDist (s.siteH w) period (segSource e)
        let s := if segJumps e && x.v == dp then s.modSite w (fun y => { y with tdp := some (y.acc, y.vec) }) else s
        let s := if segCheck e && isStreamed s.cv w e && x.v % perLine s.cv w e == 0 then
            s.modSite w (fun y => { y with passFrank := crcRun y.passFrank (bytesOf 64 d.toNat), passBytes := y.passBytes + 64 })
          else s
        let s := if bad then s.flagPass w 4 id else s
        let s := ms.foldl (fun s m => s.issueSite w m e period d bad) s
        .next (s.stepWalk w e period)

/-! ### Decisions (R83 to R91) -/

/-- The pass of a MATCH segment matched (R89). -/
def passMatched (x : Site) (tdp : Int) : Bool :=
  let rs := x.matchRes.filter (fun r => r.2.2 == x.passStart && decide (r.1 < tdp - 64000))
  !rs.isEmpty && rs.all (·.2.1)

/-- Latch that a segment's condition examines (R84). -/
def latchKey (e : Nat) : Nat := 2 * segSource e + b2n (segFalling e && decide (segSource e ≤ 16))

/-- The decision is taken; a jump sends the walker to the target (R85, R96). -/
def State.takeDecision (s : State) (w : Nat) (jump : Bool) : State :=
  let x := s.site w
  let s := s.setSite w { x with decided := true, jump := jump }
  if jump then s.jumpWalker w (segTarget x.entry) else s

/-- DECISION_POINT: 8 ns after the decision vector's start, the sequencer examines the condition; on source 20 it gives its verdict
instead (R83, R85, R89, R201, R330). -/
def execDecisionPoint (site : Fin 32) (s : State) : Host.Outcome State Fault Refusal :=
  let w := s.leadSite site.val
  let x := s.site w
  match x.tdp with
  | none => .next s
  | some (t, n) =>
    if x.decided || !segJumps x.entry || (s.walkers w).isEmpty || x.sysMatch.isSome then .next s
    else
      let s := s.advance (x.epoch + t + 64000)
      let s := (s.walkers w).foldl (fun s m =>
        s.settleTo m x.acc (judgeLimit x ((s.now : Int) - x.epoch)) ((t : Int) - 64000)) s
      let x := s.site w
      let src := segSource x.entry
      if src = 20 then .next (s.matchDecide w n (x.epoch + t) (segMatch x.entry && passMatched x t))
      else if src = 19 then .next (s.takeDecision w (segMatch x.entry && passMatched x t))
      else
        let key := latchKey x.entry
        match tget none x.latches key with
        | some u =>
          if u < (t : Int) then
            .next ((s.setSite w { x with latches := tset none x.latches key none }).takeDecision w true)
          else .next (s.takeDecision w false)
        | none => .next (s.takeDecision w false)

/-- MATCH_CONDITION: at t_dp + H_g the source-20 condition is taken: true only where a RESULT of 1 for the index has arrived, in the
combiner's subtree (R330, R332). -/
def execMatchCondition (site : Fin 32) (s : State) : Host.Outcome State Fault Refusal :=
  let w := s.leadSite site.val
  let x := s.site w
  match x.tdp with
  | none => .next s
  | some (t, n) =>
    if x.decided || segSource x.entry != 20 || x.sysMatch.isNone || (s.walkers w).isEmpty then .next s
    else
      let s := s.advance (x.epoch + t + s.siteH w)
      let g := matchGroupOf s.cv w
      .next (s.takeDecision w (x.joined.isSome && (s.mgroup g).result == some (n % 2 ^ 52, true)))

/-! ### Passes (R81, R86, R91, R104) -/

/-- The walk begins its next pass: of the same segment, or the first of another. -/
def beginPass (x : Site) (seg pass : Nat) (started : Bool) (stack : List Nat) : Site :=
  { x with
    seg := seg, pass := pass, started := started, stack := stack, v := 0, decided := false, jump := false, tdp := none
    sysMatch := none, matchRes := [], passStart := x.ord, passPoison := false, checked := false, passFrank := 0xFFFFFFFF, passBytes := 0 }

/-- PASS_BOUNDARY: the pass has run; its frank is compared, then the walk jumps, repeats, calls, returns, follows NEXT or ends. -/
def execPassBoundary (site : Fin 32) (s : State) : Host.Outcome State Fault Refusal :=
  let w := s.leadSite site.val
  let x := s.site w
  let e := x.entry
  if (s.walkers w).isEmpty || !x.started || decide (x.v < segLength e) || (segJumps e && x.tdp.isSome && !x.decided) then .next s
  else
    let s := (s.advance (x.epoch + x.acc)).passCheck w
    let x := s.site w
    if x.jump then .next (s.setSite w (beginPass x (segTarget e) 0 false x.stack))
    else if x.pass < segRepeat e then .next (s.setSite w (beginPass x x.seg (x.pass + 1) true x.stack))
    else
      let miss := segMatch e && segJumps e
      let s := if miss then (s.walkers w).foldl (fun s m => s.modSite m (fun y => { y with conditions := y.conditions ||| 0x20 })) s else s
      match afterSegment e x.stack with
      | none => .next ((s.walkers w).foldl (fun s m => s.toDrain m 0) s)
      | some (n, st) => .next (s.setSite w (beginPass (s.site w) n 0 false st))

/-- CHECK_REREAD_COMPLETE: the two background re-reads of a mismatching segment are done (R104). -/
def execCheckRereadComplete (site : Fin 32) (clean : Bool) (frank1 frank2 : W32) (s : State) : Host.Outcome State Fault Refusal :=
  let w := s.leadSite site.val
  match (s.site w).rereads with
  | [] => .next s
  | (seg, frank) :: rest =>
    let s := s.modSite w (fun x => { x with rereads := rest })
    if clean && frank1 == frank2 && frank1.toNat != frank then
      .next ((groupOf s.cv w).foldl (fun s m => s.modSite m (fun x =>
        if seg ∈ x.mismatch ∧ seg ∉ x.suspect then { x with suspect := seg :: x.suspect } else x)) s)
    else .next s

/-! ### Ends of a run (R98, R102, R120, Table 4.6) -/

/-- UNDERRUN: the prefetch cannot supply the vector that is due: every member in RUN enters STARVED, its policy acts, and its run
completes at once (R67, R98, R496). -/
def execUnderrun (site : Fin 32) (s : State) : Host.Outcome State Fault Refusal :=
  let w := s.leadSite site.val
  let x := s.site w
  let e := s.curEntry x
  let ms := s.membersIn w (· == .run)
  if ms.isEmpty || s.walkHeld w || !isStreamed s.cv w e || (s.curLine w).isSome || decide (segLength e ≤ x.v) then .next s
  else
    let s := s.advance (x.epoch + x.acc)
    .next (ms.foldl (fun s m =>
      let s := (s.siteBoundary w m).leaveWalk m 4
      let s := s.modSite m (fun y => { y with st := .starved })
      let s := if (cvSiteMode s.cv m).testBit 24 then
          (s.siteChans m).foldl (fun s c => s.forceOff m c ((x.acc : Int) + cvKD s.cv c)) s
        else s
      let s := ((s.completeStops m).endSurveys m).completeRun m false
      s.fault 35 m) s)

/-- Something above it in the order of R10 must act on the site first: a park, a hold of a site in RUN, or a commit's reference
moment at the boundary. -/
def State.reactionFirst (s : State) (k : Nat) : Bool :=
  let x := s.site (s.leadSite k)
  let b := x.epoch + x.acc
  let lo := if (s.site k).st == .run then 3 else 4
  (match s.reactionDue k lo 5 with | some t => decide (t + reach64 < b) | none => false) || s.referenceDue b

/-- STOP_BOUNDARY: a STOP, or a CANCEL of the RUN task, takes effect at the site's next boundary (R102). -/
def execStopBoundary (site : Fin 32) (s : State) : Host.Outcome State Fault Refusal :=
  let k := site.val
  match (s.site k).stopReq with
  | none => .next s
  | some (_, reason) =>
    if !((s.site k).st == .run || (s.site k).st == .hold) || s.reactionFirst k then .next s
    else
      let x := s.site (s.leadSite k)
      .next ((s.advance (x.epoch + x.acc)).toDrain k reason)

/-- STOP_ON_FAIL: the first boundary at or after the failing strobe plus 8 ns (R120, R121). -/
def execStopOnFail (site : Fin 32) (s : State) : Host.Outcome State Fault Refusal :=
  let k := site.val
  let x := s.site (s.leadSite k)
  let stops := match (s.site k).stopReq with | some (t, _) => decide (t + reach64 < x.epoch + x.acc) | none => false
  match (s.site k).failStop with
  | none => .next s
  | some t =>
    if !((s.site k).st == .run || (s.site k).st == .hold) || decide ((x.acc : Int) < t) || s.reactionFirst k || stops then .next s
    else .next ((s.advance (x.epoch + x.acc)).toDrain k 3)

/-- A site is parked: DE deasserted at the parking boundary, in place on a site with no run; a run ends FAULTED (R19, R496). -/
def State.parkSite (s : State) (k : Nat) : State :=
  let st := (s.site k).st
  let lead := s.site (s.leadSite k)
  let force := fun (s : State) (t : Int) => (s.siteChans k).foldl (fun s c => s.forceOff k c (t + cvKD s.cv c)) s
  let inPlace := fun (s : State) => (s.siteChans k).foldl (fun s c => s.forceIdle c false ((s.now : Int) - (s.site k).epoch)) s
  let parked := fun (s : State) => s.modSite k (fun x => { x with st := .parked })
  match st with
  | .parked => s
  | .idle => parked (inPlace s)
  | .armed => parked (inPlace (s.abortArmed (s.leadSite k) 5 6 true))
  | .starved => parked (force s ((s.now : Int) - (s.site k).epoch))
  | .drain => (parked (force s ((s.now : Int) - (s.site k).epoch))).completeRun k true
  | _ =>
    let s := (s.advance (lead.epoch + lead.acc)).passCheck (s.leadSite k)
    let s := (s.siteBoundary (s.leadSite k) k).leaveWalk k 5
    let s := force (parked s) lead.acc
    ((s.completeStops k).endSurveys k).completeRun k true

/-- REACTION_BOUNDARY: the fault reactions on a site take effect, or end, at its boundary; in place where it has none (R11, R67,
R100, R420, R421). -/
def execReactionBoundary (site : Fin 32) (s : State) : Host.Outcome State Fault Refusal :=
  let k := site.val
  let x := s.site k
  let lead := s.site (s.leadSite k)
  let moment := lead.epoch + lead.acc
  if s.siteParked k then .next ((s.parkSite k).syncSleep)
  else
    match x.st with
    | .parked => .next (((s.finishRun k).toIdle k).syncSleep)
    | .run =>
      if s.siteHeld k then
        let s := (s.advance moment).siteBoundary (s.leadSite k) k
        let s := if cvBgroup s.cv k = 0 then s else s.leaveWalk k 6
        .next ((s.modSite k (fun y => { y with st := .hold, conditions := y.conditions ||| 0x40 })).endSurveys k)
      else .next s
    | .hold =>
      if s.siteHeld k then .next s
      else if cvBgroup s.cv k = 0 then .next ((s.advance moment).modSite k (fun y => { y with st := .run }))
      else .next (s.toDrain k 6)
    | _ => .next s

/-- The time at which a site's last pending edge falls, from its epoch. -/
def State.lastPending (s : State) (k : Nat) (d : Int) : Int :=
  (s.siteChans k).foldl (fun m c => ((s.chan c).pend ++ (s.chan c).late).foldl (fun m e => max m (sampleEnd e)) m) d

/-- A record of the site still waits to be handed to the acquisition stream. -/
def State.recordsWait (s : State) (k : Nat) : Bool :=
  !(s.site k).marks.isEmpty || (s.siteChans k).any (fun c => !(s.chan c).respQ.isEmpty || !(s.chan c).pmQ.isEmpty)

/-- DRAIN_COMPLETE: the last pending edge is placed and the last stamp before t_close seen; with the re-reads complete and the last
record handed to the acquisition stream, the site goes to IDLE and its RUN completes (R100, R104, R150, Table 4.6). -/
def execDrainComplete (site : Fin 32) (s : State) : Host.Outcome State Fault Refusal :=
  let k := site.val
  let x := s.site k
  if x.st != .drain || !(s.site (s.leadSite k)).rereads.isEmpty then .next s
  else
    let stamps := (s.siteChans k).foldl (fun m c => max m (cvKC s.cv c)) 0
    let s := s.advance ((x.epoch : Int) + s.lastPending k (x.tClose.getD 0 + stamps)).toNat
    let s := s.finishRun k
    if s.recordsWait k then .next s else .next ((s.toIdle k).completeRun k false)

end Sys2Proof.Machine
end

