-- ==== Sys2Proof/Machine/Trigger.lean ====
section
/-! DEFINITION. The trigger inputs: stamps, dead time, latches, trigger starts, marks and follow routes (R84, R103, R199 to R204). -/

namespace Sys2Proof.Machine

/-- The dead time of an input line, 1 ns (R200). -/
def deadTime : Nat := 8000

/-- Request latch of an input's edge: source `input` + 1, asserting or deasserting (R84). -/
def inputLatch (input : Nat) (asserting : Bool) : Nat := 2 * (input + 1) + b2n (!asserting)

/-- A stamp sets the request latch of every walk under way (R84, R87). -/
def State.latchStamp (s : State) (input : Nat) (asserting : Bool) (t : Nat) : State :=
  (List.range 32).foldl (fun s w =>
    let x := s.site w
    if s.leadSite w = w ∧ !(s.walkers w).isEmpty ∧ x.epoch ≤ t then
      s.setSite w { x with latches := setLatch x.latches (inputLatch input asserting) ((t : Int) - x.epoch) }
    else s) s

/-- A stamp meets the start conditions of prepared RUNs that wait for it (R103). -/
def State.startStamp (s : State) (input : Nat) (asserting : Bool) (t : Nat) : State :=
  (List.range 32).foldl (fun s w =>
    let x := s.site w
    match x.req with
    | some r =>
      if x.st == .armed && x.prepared && r.start == 1 && r.input == input && r.falling == !asserting && x.epochAt.isNone
          && decide (x.prepAt ≤ t) && !s.startBlocked w then
        s.setSite w { x with epochAt := some (t + cvStartDelay s.cv r.site) }
      else s
    | none => s) s

/-- The mark of a stamp, where INPUT_MARKS selects its sense (Table 9.1). -/
def State.markStamp (s : State) (input : Nat) (asserting : Bool) (t : Nat) : State :=
  if fld s.setup (160 + 2 * input) 2 = (if asserting then 1 else 2) then s.mark (fld s.setup 288 4) input t else s

/-- TRIGGER_EDGE: an edge of TRIG_IN_0 to 7 or EVT_0 to 7 crosses its threshold at root TU `t`. Within the dead time after a stamped
edge it is lost and counted; else it is stamped (R199, R200). -/
def execTriggerEdge (input : Fin 16) (asserting : Bool) (t : Nat) (s : State) : Host.Outcome State Fault Refusal :=
  let i := input.val
  let s := s.advance t
  let s := { s with trg := { s.trg with level := tset false s.trg.level i asserting } }
  let dead := match tget none s.trg.lastEdge i with | some l => decide (t < l + deadTime) | none => false
  if dead then .next ((s.rcAdd (aTrgDead i) 1).fault 80 i)
  else
    let s := { s with trg := { s.trg with lastEdge := tset none s.trg.lastEdge i (some t) } }
    let s := ((s.latchStamp i asserting t).startStamp i asserting t).markStamp i asserting t
    .next (if asserting then s.causeWhere 3 t (fun _ r => routeArg r == i) else s)

end Sys2Proof.Machine
end

