-- ==== Sys2Proof/Machine/Acquire.lean ====
section
/-! DEFINITION. The acquisition stream engine (chapter 9): routing, the merger, postbags, the bag buffer and spill ring, loss, and
STREAM_OPEN, STREAM_CLOSE and STREAM_MARK. -/

namespace Sys2Proof.Machine

/-! ### Routing (R190, Table 9.1) -/

def State.siteStream (s : State) (k : Nat) : Nat := fld s.setup (4 * k) 4
def State.markStream (s : State) : Nat := fld s.setup 288 4
def State.measureStream (s : State) : Nat := fld s.setup 292 4
def State.cspStream (s : State) : Nat := fld s.setup 296 4
def State.summaryStream (s : State) : Nat := fld s.setup 300 4
/-- FLUSH in TU. -/
def State.flushTime (s : State) : Nat := fld s.setup 304 16 * tuPerUs
/-- The stream is an input of the CSP. -/
def State.toCsp (s : State) (st : Nat) : Bool := s.setup.testBit (448 + st)

/-- Records a record stands for when it is lost: a GAP adds its own count (R212). -/
def lostCount (r : BitVec 64) : Nat := if recKind r = 5 then r.toNat % 2 ^ 56 else 1

/-- The stream takes records: open, its STREAM_CLOSE not yet dispatched (R194, R214). -/
def isTaking (x : Stream) : Bool := x.isOpen && x.closing.isNone

/-! ### Postbags (R208 to R213) -/

def bagRecords : Nat := 504
def bagEntries : Nat := 56
def bufferBags : Nat := 256
/-- Above so many bags in the buffer a closed bag spills. -/
def spillMark : Nat := 192

/-- The spill ring can take a bag: a ring is configured, has room, and no old ring drains (R193, R211). -/
def State.spillRoom (s : State) : Bool := s.acq.spillOld == 0 && decide (s.acq.spill.length < spillBags s.cfg.committed)

/-- A closed bag goes into the spill ring (R211). -/
def State.spills (s : State) : Bool :=
  s.spillRoom && (decide (spillMark < s.acq.buffer.length) || !s.acq.spill.isEmpty)

/-- A bag can be closed: the buffer or the spill ring can take it (R212). While an old ring drains, neither does, since the bags it
holds go first and the new ring takes none yet (R193, R211; DEDUCED, notes/assumptions/74.md). -/
def State.canClose (s : State) : Bool := s.spills || (s.acq.spillOld == 0 && decide (s.acq.buffer.length < bufferBags))

/-- The bytes of a bag's body: its records, or its summary entries. -/
def bagBody (b : Bag) : List Byte :=
  let body := if b.isSummary then b.summaries.flatMap (fun e => bytesOf 72 e.toNat) else b.recs.flatMap (fun r => bytesOf 8 r.toNat)
  body ++ List.replicate (4032 - body.length) 0

/-- A bag's body bytes as pattern lines, the last of its 64 lines being free for the header, which is formed when it is written to the
host. -/
def bagLines (b : Bag) : List (BitVec 512) :=
  let body := bagBody b
  (List.range 64).map (fun i => BitVec.ofNat 512 (ofBytes ((body.drop (64 * i)).take 64)))

/-- A bag enters the spill ring: it goes to the ring's next 64 pattern lines (R211). -/
def State.spillBag (s : State) (b : Bag) : State :=
  let cv := s.cfg.committed
  let a := spillBase cv + 64 * s.acq.spillPos
  let s := (List.range 64).foldl (fun s i => s.writeLine (a + i) ((bagLines b).getD i 0)) s
  { s with acq := { s.acq with spill := s.acq.spill ++ [{ b with line := some a }], spillPos := (s.acq.spillPos + 1) % max 1 (spillBags cv) } }

/-- A closed bag enters the spill ring or the buffer. -/
def State.placeBag (s : State) (b : Bag) : State :=
  if s.spills then s.spillBag b else { s with acq := { s.acq with buffer := s.acq.buffer ++ [b] } }

/-- A new bag of a stream. -/
def State.newBag (s : State) (st : Nat) (isSummary : Bool) : Bag :=
  { stream := st, rs := (s.stream st).rs, recs := [], summaries := [], isSummary := isSummary, final := false, early := false,
    warmup := !s.ptu.tbWarm, opened := s.now, closedSec := 0, closedTu := 0, line := none }

/-- A bag as it is closed now (R210). -/
def State.sealBag (s : State) (b : Bag) (early final : Bool) : Bag :=
  { b with early := early, final := final, warmup := b.warmup || !s.ptu.tbWarm
           closedSec := s.ptuNow / tuPerSec, closedTu := s.ptuNow % tuPerSec }

/-- `n` more records lost from a stream since its STREAM_OPEN, for a reason (R214). -/
def State.addLost (s : State) (st reason n : Nat) : State :=
  s.modStream st (fun x => { x with lost := tset 0 x.lost reason (tget 0 x.lost reason + n) })

/-- A GAP record enters a stream's bag: STREAM_LOSS asserts (R213, Table 19.1). The loss that a queue's GAP reports counts towards the
records lost since STREAM_OPEN from now on; other losses count where they happen, and those before STREAM_OPEN do not. -/
def State.gapIssued (s : State) (st : Nat) (r : BitVec 64) : State :=
  if recKind r ≠ 5 then s
  else
    let reason := fld r.toNat 56 5
    (if reason = 1 ∨ reason = 2 ∨ reason = 7 then s.addLost st reason (lostCount r) else s).fault 78 (st + 2 ^ 8 * reason)

/-- The GAP records of a stream's counts not reported yet (R213). -/
def gapsOf (x : Stream) : List (BitVec 64) := x.unreported.map (fun e => gapRecord e.1 (min e.2 (2 ^ 56 - 1)))

/-- Close a stream's record bag (R210): the GAP records of its losses come first, what they push out begins the next bag. A bag
with nothing to hold is closed only as the FINAL bag. -/
def State.closeBag (s : State) (st : Nat) (final : Bool) : State :=
  let x := s.stream st
  let gaps := gapsOf x
  let b := x.cur.getD (s.newBag st false)
  let all := gaps ++ b.recs
  if !s.canClose || (all.isEmpty && !final) then s
  else
    let recs := all.take bagRecords
    let rest := all.drop bagRecords
    let s := s.placeBag (s.sealBag { b with recs := recs } (decide (recs.length < bagRecords)) (final && rest.isEmpty))
    let s := s.modStream st (fun x => { x with unreported := [] })
    let s := x.unreported.foldl (fun s e => s.fault 78 (st + 2 ^ 8 * e.1)) s
    let next := s.newBag st false
    s.modStream st (fun x => { x with cur := if rest.isEmpty then none else some { next with recs := rest } })

/-- Close a stream's summary bag, where it holds an entry. -/
def State.closeSummary (s : State) (st : Nat) : State :=
  match (s.stream st).curSum with
  | none => s
  | some b =>
    if !s.canClose then s
    else (s.placeBag (s.sealBag b (decide (b.summaries.length < bagEntries)) false)).modStream st (fun x => { x with curSum := none })

/-- A stream's last bags (R214): the summary bag, then the FINAL bag; where they cannot be closed yet, they wait. -/
def State.closeFinal (s : State) (st : Nat) : State :=
  let s := s.closeSummary st
  let x := s.stream st
  let held := (gapsOf x).length + (x.cur.map (fun b => b.recs.length)).getD 0
  if x.curSum.isSome then s
  else
    let s := if bagRecords < held then s.closeBag st false else s
    s.closeBag st true

/-- The FINAL bag of a closing stream has been closed. -/
def State.finalGone (s : State) (st : Nat) : Bool := (s.acq.buffer ++ s.acq.spill).any (fun b => b.stream == st && b.final)

/-- A record waits at a full bag. -/
def isFull (x : Stream) : Bool := match x.cur with | some b => decide (bagRecords ≤ b.recs.length) | none => false

/-- `n` records of a stream lost for a reason are still to be reported by a GAP (R213). -/
def State.report (s : State) (st reason n : Nat) : State :=
  s.modStream st (fun x => { x with unreported := tset 0 x.unreported reason (tget 0 x.unreported reason + n) })

/-- Count `n` records lost at a stream for a reason, to be reported by a GAP (R213, R214). -/
def State.lose (s : State) (st reason n : Nat) : State := (s.report st reason n).addLost st reason n

/-- A record enters the CSP input queue with its stream's tag, or is dropped and counted (R215, Table 10.5). DESIGN CHOICE
(notes/assumptions/77.md): GAP records take places too, a record with a count ahead of it needs two, and a dropped GAP adds the count
it holds. -/
def State.pushCsp (s : State) (st : Nat) (r : BitVec 64) : State :=
  let c := s.csp
  if c.st == .off || decide (4096 < c.inQ.length + (if c.inDrop = 0 then 1 else 2)) then
    let n := lostCount r
    (({ s with csp := { c with inDrop := c.inDrop + n } }).rcAdd aCspInDrops n).lose s.cspStream 4 n
  else
    let gap := if c.inDrop = 0 then [] else [(gapRecord 4 c.inDrop, 15)]
    { s with csp := { c with inQ := c.inQ ++ gap ++ [(r, st)], inDrop := 0 } }

/-- A record enters a stream's open bag, which closes when full (R208, R210); where a full bag cannot be closed the record is lost
(R212). -/
def State.bagPut (s : State) (st : Nat) (r : BitVec 64) : State :=
  let s := if isFull (s.stream st) then s.closeBag st false else s
  if isFull (s.stream st) then s.lose st 3 (lostCount r)
  else
    let b := (s.stream st).cur.getD (s.newBag st false)
    let s := s.modStream st (fun x => { x with cur := some { b with recs := b.recs ++ [r] } })
    let s := s.gapIssued st r
    if isFull (s.stream st) then s.closeBag st false else s

/-- The merger has taken a record routed to a stream: it goes to the CSP, into the stream's bag, or is discarded and counted
(R195, R215). -/
def State.deliver (s : State) (st : Nat) (r : BitVec 64) : State :=
  if s.toCsp st then s.pushCsp st r
  else if isTaking (s.stream st) then s.bagPut st r
  else s.modStream st (fun x => { x with notOpen := x.notOpen + lostCount r })

/-- A latched summary is placed in SUMMARY_STREAM's summary bag; one that cannot be is counted in LOST of the next entry
(R151, R213). -/
def State.deliverSummary (s : State) (e : BitVec 576) : State :=
  let st := s.summaryStream
  let full : State → Bool := fun s => match (s.stream st).curSum with | some b => decide (bagEntries ≤ b.summaries.length) | none => false
  let s := if full s then s.closeSummary st else s
  if !isTaking (s.stream st) || full s then s.modStream st (fun x => { x with sumLost := satAdd 32 x.sumLost 1 })
  else
    let x := s.stream st
    let b := x.curSum.getD (s.newBag st true)
    let e := BitVec.ofNat 576 (putFld e.toNat 32 32 x.sumLost)
    let s := s.setStream st { x with sumLost := 0, curSum := some { b with summaries := b.summaries ++ [e] } }
    if full s then s.closeSummary st else s

/-! ### The merger (R198) -/

/-- Take the head of a list of records, with the record after it where the head is a GAP. -/
def takeHead (q : List (BitVec 64)) : List (BitVec 64) × List (BitVec 64) :=
  match q with
  | [] => ([], [])
  | g :: rest => if recKind g = 5 then (g :: rest.take 1, rest.drop 1) else ([g], rest)

/-- The stream of a channel's records (R190). -/
def State.chanStream (s : State) (c : Nat) : Option Nat := (s.siteOf c).map s.siteStream

/-- Take from a channel's response queue, or its postmark queue, for its stream. -/
def State.mergeChan (s : State) (pm : Bool) (c : Nat) : State :=
  match s.chanStream c with
  | none => s
  | some st =>
    let x := s.chan c
    let (now, rest) := takeHead (if pm then x.pmQ else x.respQ)
    let s := s.setChan c (if pm then { x with pmQ := rest } else { x with respQ := rest })
    now.foldl (fun s r => s.deliver st r) s

/-- Take from a site's marks and EPOCH pairs. -/
def State.mergeSite (s : State) (k : Nat) : State :=
  match (s.site k).marks with
  | [] => s
  | r :: rest => (s.modSite k (fun x => { x with marks := rest })).deliver (s.siteStream k) r

/-- Deliver a record of the device record queue, with its flush (R210). A flush that finds neither the buffer nor the spill ring with
room is forgotten: the bag goes on (DESIGN CHOICE, notes/assumptions/75.md). -/
def State.deliverDev (s : State) (e : BitVec 64 × Nat) : State :=
  let s := s.deliver (e.2 % 16) e.1
  if 16 ≤ e.2 ∧ isTaking (s.stream (e.2 % 16)) then s.closeBag (e.2 % 16) false else s

/-- Take from the device record queue: a GAP record with the record after it, whatever stream that is bound for (R198). -/
def State.mergeDev (s : State) : State :=
  match s.acq.devQ with
  | [] => s
  | e :: rest =>
    let n := if recKind e.1 = 5 then 1 else 0
    (e :: rest.take n).foldl (fun s e => s.deliverDev e) { s with acq := { s.acq with devQ := rest.drop n } }

/-- Take from the CSP output queue (R216). -/
def State.mergeCsp (s : State) : State :=
  match s.csp.outQ with
  | [] => s
  | r :: rest => ({ s with csp := { s.csp with outQ := rest } }).deliver s.cspStream r

/-- Take a latched summary. -/
def State.mergeSummary (s : State) : State :=
  match s.acq.summaryQ with
  | [] => s
  | e :: rest => ({ s with acq := { s.acq with summaryQ := rest } }).deliverSummary e

/-- EPOCH records of a site wait: its channels' records do not go before them (R144, R198). -/
def State.epochWaits (s : State) (c : Nat) : Bool :=
  match s.siteOf c with | some k => (s.site k).marks.any (fun r => recKind r == 6) | none => false

/-- Queues of the mergers by number: 0 to 127 the response queues, 128 to 255 the postmark queues, 256 the device record queue, 257
the CSP output queue, 258 + k the marks and EPOCH pairs of site k, 290 the latched summaries. The stream to which the head of a
queue is routed; none where it is empty. -/
def State.headStream (s : State) (q : Nat) : Option Nat :=
  if q < 128 then (if (s.chan q).respQ.isEmpty || s.epochWaits q then none else s.chanStream q)
  else if q < 256 then (if (s.chan (q - 128)).pmQ.isEmpty || s.epochWaits (q - 128) then none else s.chanStream (q - 128))
  else if q = 256 then (s.acq.devQ.head?).map (fun e => e.2 % 16)
  else if q = 257 then (if s.csp.outQ.isEmpty then none else some s.cspStream)
  else if q < 290 then (if (s.site (q - 258)).marks.isEmpty then none else some (s.siteStream (q - 258)))
  else if q = 290 then (if s.acq.summaryQ.isEmpty then none else some s.summaryStream)
  else none

/-- Take from a queue. -/
def State.mergeQueue (s : State) (q : Nat) : State :=
  if q < 128 then s.mergeChan false q
  else if q < 256 then s.mergeChan true (q - 128)
  else if q = 256 then s.mergeDev
  else if q = 257 then s.mergeCsp
  else if q < 290 then s.mergeSite (q - 258)
  else s.mergeSummary

/-- Queues of the mergers. -/
def mergeQueues : Nat := 291

/-- The next non-empty queue of a stream in the round, after the one its merger served last: by queue number (DESIGN CHOICE,
notes/assumptions/76.md). -/
def State.nextQueue (s : State) (st : Nat) : Option Nat :=
  let from_ := match (s.acq.served.find? (fun e => e.1 == st)) with | some e => e.2 + 1 | none => 0
  ((List.range mergeQueues).map (fun i => (from_ + i) % mergeQueues)).find? (fun q => s.headStream q == some st)

/-- RECORD_MERGE: a stream's merger takes the next record of the next non-empty queue in its round, with the GAP record before it; a
command that names another queue than that one changes nothing (R198). -/
def execRecordMerge (stream : Fin 16) (queue : Fin 291) (s : State) : Host.Outcome State Fault Refusal :=
  if s.nextQueue stream.val != some queue.val then .next s
  else
    .next ({ s with acq := { s.acq with served := tput (terase s.acq.served stream.val) stream.val queue.val } }.mergeQueue queue.val)

/-- Records that wait in a queue. -/
def State.queueLength (s : State) (q : Nat) : Nat :=
  if q < 128 then (s.chan q).respQ.length
  else if q < 256 then (s.chan (q - 128)).pmQ.length
  else if q = 257 then s.csp.outQ.length
  else if q < 290 then (s.site (q - 258)).marks.length
  else s.acq.summaryQ.length

/-- Every record that waits in a queue and is routed to a stream is taken (R214). -/
def State.drainQueue (s : State) (st q : Nat) : State :=
  (List.range (s.queueLength q)).foldl (fun s _ => if s.headStream q = some st then s.mergeQueue q else s) s

/-- Every record of the device record queue that is bound for a stream is taken. -/
def State.drainDev (s : State) (st : Nat) : State :=
  let mine := s.acq.devQ.filter (fun e => e.2 % 16 == st)
  let s := { s with acq := { s.acq with devQ := s.acq.devQ.filter (fun e => e.2 % 16 != st) } }
  mine.foldl (fun s e => s.deliverDev e) s

/-- Queues in the order in which a closing stream takes them: a site's EPOCH pairs precede its records. -/
def drainOrder : List Nat := (List.range 32).map (· + 258) ++ List.range 256 ++ [257, 290]

/-- Everything produced for a stream so far is taken (R214). -/
def State.drainStream (s : State) (st : Nat) : State :=
  let s := (List.range 32).foldl (fun s k => if s.siteStream k = st then s.catchUp k else s) s
  (drainOrder.foldl (fun s q => s.drainQueue st q) s).drainDev st

/-! ### Bags on their way to the host (R209, R211, R252) -/

/-- Records of kind MEASURE with SETTLE set (R389). -/
def hasSettle (b : Bag) : Bool := b.recs.any (fun r => recKind r == 4 && r.toNat.testBit 51)

/-- A postbag's 4,096 bytes, its stamp given (Tables 9.5 and 9.6). -/
def State.bagBytes (s : State) (b : Bag) (stamp : Nat) : List Byte :=
  let x := s.stream b.stream
  let count := if b.isSummary then b.summaries.length else b.recs.length
  let flags := b2n b.warmup + 2 * b2n (b.recs.any (fun r => recKind r == 5)) + 4 * b2n (hasSettle b) + 8 * b2n b.isSummary
    + 16 * b2n b.final + 32 * b2n b.early
  let head := 0x47414250 + 2 ^ 32 * b.rs + 2 ^ 40 * b.stream + 2 ^ 48 * count + 2 ^ 64 * stamp + 2 ^ 96 * flags
    + 2 ^ 128 * time96 x.epochSec x.epochTu + 2 ^ 224 * time96 b.closedSec b.closedTu
  let body := bagBody b
  let frank := crc32c (bytesOf 64 head ++ body)
  bytesOf 60 head ++ bytesOf 4 frank.toNat ++ body

/-- The FINAL bag has been written or discarded: STREAM_OPEN completes, then STREAM_CLOSE (R214, Table 12.3). -/
def State.finishClose (s : State) (st stamp : Nat) : State :=
  let x := s.stream st
  match x.closing with
  | none => s
  | some (task, addr) =>
    let counts := (List.range 7).map (fun i => tget 0 x.lost (i + 1))
    let s := if addr = 0 then s else s.hostWrite addr 56 (ofBytes (counts.flatMap (bytesOf 8)))
    let s := s.setStream st { x with isOpen := false, task := none, closing := none, cur := none, curSum := none }
    let s := match x.task with | some id => s.completeId id 0 (time96 x.epochSec x.epochTu) | none => s
    match task with
    | some id => s.completeId id 0 (stamp + 2 ^ 32 * x.written + 2 ^ 64 * min counts.sum (2 ^ 64 - 1))
    | none => s

/-- Room has come: full bags close, and closing streams send their FINAL bags (R212, R214). -/
def State.retryBags (s : State) : State :=
  (List.range 16).foldl (fun s st =>
    let s := if isFull (s.stream st) then s.closeBag st false else s
    if (s.stream st).closing.isSome && !s.finalGone st then s.closeFinal st else s) s

/-- The address of the next descriptor that can be filled: descriptors of a bad address are consumed and left unwritten (R252). -/
def State.nextDescriptor (s : State) (k : Nat) : Nat → State × Option Nat
  | 0 => (s, none)
  | n + 1 =>
    let r := s.rs k
    if r.strProd = r.strCons then (s, none)
    else
      let a := readLE s.host (s.entryAddr k 2 16 r.strCons.toNat) 8
      if a % 4096 = 0 then (s, some a)
      else State.nextDescriptor ((s.modRs k (fun r => { r with strCons := r.strCons + 1 })).writeBack k) k n

/-- The first bag of the buffer, written or discarded, leaves it. -/
def State.dropBag (s : State) : State := { s with acq := { s.acq with buffer := s.acq.buffer.drop 1 } }

/-- BAG_WRITE: the first bag of the buffer is written to the next descriptor of its ring set's stream ring (R211). Where there is
none, it waits; in a shutdown it is discarded and counted (R240). -/
def execBagWrite (s : State) : Host.Outcome State Fault Refusal :=
  match s.acq.buffer with
  | [] => .next s
  | b :: _ =>
    let k := b.rs
    let x := s.stream b.stream
    let (s, d) := s.nextDescriptor k (s.ringLen k 2)
    match d with
    | some a =>
      let s := { s with host := writeBytes s.host a (s.bagBytes b x.stamp.toNat) }
      let s := s.modRs k (fun r => { r with strCons := r.strCons + 1 })
      let s := (s.writeBack k).entryWritten k 2 false
      let s := s.dropBag.modStream b.stream (fun x => { x with stamp := x.stamp + 1, written := satAdd 32 x.written 1 })
      let s := if b.final then s.finishClose b.stream x.stamp.toNat else s
      .next s.retryBags
    | none =>
      if (s.rs k).st = .enabled then .next s
      else
        let s := s.dropBag.rcAdd (aRs k 0x2C) 1
        let s := if b.final then s.finishClose b.stream x.stamp.toNat else s
        .next s.retryBags

/-- A bag with its body as read from pattern lines. -/
def bagOf (b : Bag) (ds : List (BitVec 512)) : Bag :=
  let body := ds.flatMap (fun d => bytesOf 64 d.toNat)
  { b with
    line := none
    recs := (List.range b.recs.length).map (fun i => BitVec.ofNat 64 (ofBytes ((body.drop (8 * i)).take 8)))
    summaries := (List.range b.summaries.length).map (fun i => BitVec.ofNat 576 (ofBytes ((body.drop (72 * i)).take 72))) }

/-- A bag lost to an uncorrectable spill read (R212, R213, Table 19.1): its records count against its stream, a GAP record by its own
count, which is then no longer counted under its own reason; a summary entry takes with it the LOST it carried. -/
def State.loseBag (s : State) (b : Bag) : State :=
  let s := s.fault 50 b.stream
  if b.isSummary then
    let n := (b.summaries.map (fun e => 1 + fld e.toNat 32 32)).sum
    s.modStream b.stream (fun x => { x with sumLost := satAdd 32 x.sumLost n })
  else
    let s := (b.recs.filter (fun r => recKind r == 5)).foldl (fun s r =>
      s.modStream b.stream (fun x =>
        let reason := fld r.toNat 56 5
        { x with lost := tset 0 x.lost reason (tget 0 x.lost reason - lostCount r) })) s
    s.lose b.stream 6 ((b.recs.map lostCount).sum)

/-- SPILL_READ: the first bag of the spill ring is read from its lines into the buffer while that holds 192 bags or fewer; one with an
uncorrectable error is discarded and its records counted (R211, R212). -/
def execSpillRead (line : Nat) (errs : Errors) (s : State) : Host.Outcome State Fault Refusal :=
  match s.acq.spill with
  | [] => .next s
  | b :: rest =>
    if spillMark < s.acq.buffer.length then .next s
    else
      let a := b.line.getD 0
      let s := { s with acq := { s.acq with spill := rest, spillOld := s.acq.spillOld - 1 } }
      let (s, ds, bad) := (List.range 64).foldl (fun (acc : State × List (BitVec 512) × Bool) i =>
        let (s, d, bad, _) := acc.1.memRead (a + i) (if i = line then errs else [])
        (s, acc.2.1 ++ [d], acc.2.2 || bad)) (s, [], false)
      if bad then .next (s.loseBag b).retryBags
      else .next ({ s with acq := { s.acq with buffer := s.acq.buffer ++ [bagOf b ds] } }).retryBags

/-- BAG_FLUSH_TIMEOUT: FLUSH after its first record or entry a bag closes (R210). -/
def execBagFlushTimeout (stream : Fin 16) (s : State) : Host.Outcome State Fault Refusal :=
  let st := stream.val
  let x := s.stream st
  match x.cur, x.curSum with
  | some b, some u =>
    if u.opened < b.opened then .next ((s.advance (u.opened + s.flushTime)).closeSummary st)
    else .next ((s.advance (b.opened + s.flushTime)).closeBag st false)
  | some b, none => .next ((s.advance (b.opened + s.flushTime)).closeBag st false)
  | none, some u => .next ((s.advance (u.opened + s.flushTime)).closeSummary st)
  | none, none => .next s

/-! ### EPOCH pairs (R144, R196) -/

/-- EPOCH_PAIR_DUE: 2^50 TU after the last pair of a running site's epoch, or of an open stream's, the next pair is issued. -/
def execEpochPairDue (isStream : Bool) (n : Fin 32) (s : State) : Host.Outcome State Fault Refusal :=
  if isStream then
    let x := s.stream n.val
    if !isTaking x then .next s
    else
      let t := x.epoch + x.pairs * 2 ^ 50
      let s := (s.advance t).setStream n.val { x with pairs := x.pairs + 1 }
      .next ((epochPair true 0 (ptuTuAt s.ptu t)).foldl (fun s r => s.deliver n.val r) s)
  else
    let x := s.site n.val
    let draining := x.st == .drain && decide (((x.epochPairs * 2 ^ 50 : Nat) : Int) < x.tClose.getD 0)
    if x.st == .run || x.st == .hold || draining then
      .next ((s.advance (x.epoch + x.epochPairs * 2 ^ 50)).siteEpochPair n.val x.epochPairs)
    else .next s

/-! ### Envelopes -/

/-- R192 forbids the stream to a ring set: it would receive records of a site that the set's function does not hold, or device
records on a ring set above 31. -/
def State.streamForbidden (s : State) (rs st : Nat) : Bool :=
  (List.range 32).any (fun k => s.members k != 0 && s.siteStream k == st && !s.holdsSite (s.rsFn rs) k)
    || (decide (31 < rs) && decide (st ∈ [s.markStream, s.measureStream, s.cspStream, s.summaryStream]))

/-- STREAM_OPEN at its engine (R194 to R196, R252). What still waits for the stream was produced while it was not open (R214). The task stays in service until the stream has closed. -/
def engineStreamOpen (st : Nat) (t : Task) (s : State) : State :=
  let x := s.stream st
  let rs := t.hdr.rs.val
  if x.isOpen || s.streamForbidden rs st || !(s.reg (aRs rs 0x20)).testBit 1 then s.complete t 4 0
  else
    let s := s.drainStream st
    let x := s.stream st
    let n := x.notOpen
    let s := s.setStream st { x with
        isOpen := true, rs := rs, task := some t.id, epoch := s.now, epochSec := s.ptuNow / tuPerSec, epochTu := s.ptuNow % tuPerSec
        pairs := 1, stamp := 0, written := 0, cur := none, curSum := none, notOpen := 0, lost := [], closing := none }
    let s := (epochPair true 0 s.ptuNow).foldl (fun s r => s.deliver st r) s
    let s := if n = 0 then s else s.deliver st (gapRecord 5 (min n (2 ^ 56 - 1)))
    s.release t.id

/-- STREAM_OPEN. -/
def execStreamOpen (h : Hdr) (stream : Nat) (s : State) : Host.Outcome State Fault Refusal :=
  .next (serve h (.streamOpen stream) (engineStreamOpen stream) s)

/-- Counts of records dropped at the queues of a stream that no later record has reported: the FINAL bag reports them (R213). -/
def State.reportQueues (s : State) (st : Nat) : State :=
  let cs := (List.range 128).filter (fun c => s.chanStream c == some st)
  let r1 := (cs.map (fun c => (s.chan c).respDrop)).sum
  let r2 := (cs.map (fun c => (s.chan c).pmDropGap)).sum
  let r7 := if s.markStream = st then s.acq.devDrop else 0
  let s := cs.foldl (fun s c => s.modChan c (fun x => { x with respDrop := 0, pmDropGap := 0 })) s
  let s := if s.markStream = st then { s with acq := { s.acq with devDrop := 0 } } else s
  let s := if r1 = 0 then s else s.lose st 1 r1
  let s := if r2 = 0 then s else s.lose st 2 r2
  if r7 = 0 then s else s.lose st 7 r7

/-- A stream begins to close: what was produced is taken, and the FINAL bag follows (R214). -/
def State.beginClose (s : State) (st : Nat) (task : Option Nat) (addr : Nat) : State :=
  let s := (s.drainStream st).reportQueues st
  (s.modStream st (fun x => { x with closing := some (task, addr) })).closeFinal st

/-- STREAM_CLOSE at its engine (R194, R214). -/
def engineStreamClose (st addr : Nat) (t : Task) (s : State) : State :=
  if isTaking (s.stream st) then s.beginClose st (some t.id) addr else s.complete t 4 0

/-- STREAM_CLOSE. -/
def execStreamClose (h : Hdr) (stream addr : Nat) (s : State) : Host.Outcome State Fault Refusal :=
  .next (serve h (.streamClose stream addr) (engineStreamClose stream addr) s)

/-- STREAM_MARK at its engine (R196, R204, R210). -/
def engineStreamMark (st : Nat) (flush noMark : Bool) (pulse : Nat) (t : Task) (s : State) : State :=
  let s := s.causeWhere 4 s.now (fun l _ => pulse.testBit l)
  let x := s.stream st
  if !x.isOpen then
    (if noMark then s else s.modStream st (fun x => { x with notOpen := x.notOpen + 1 })).complete t 0 (2 ^ 64)
  else
    let full := decide (1024 ≤ qLen (s.acq.devQ.map (·.1)))
    let s := if noMark then s else s.devPush (markRecord 16 s.now x.epoch) (st + 16 * b2n flush)
    let s := if flush && (noMark || full) && x.closing.isNone then s.closeBag st false else s
    s.complete t 0 ((s.now - x.epoch) % 2 ^ 64)

/-- STREAM_MARK. -/
def execStreamMark (h : Hdr) (stream : Nat) (flush noMark : Bool) (pulse : Nat) (s : State) : Host.Outcome State Fault Refusal :=
  .next (serve h (.streamMark stream flush noMark pulse) (engineStreamMark stream flush noMark pulse) s)

end Sys2Proof.Machine
end

