-- ==== Sys2Proof/Machine/Convert.lean ====
section
/-! DEFINITION. The measurement converters and the requests that wait for them (R384, R391, R393, R397); the temperature that a sensor's
code stands for (Table 17.1). -/

namespace Sys2Proof.Machine

def State.conv (s : State) (b : Bool) : Conv := if b then s.adc.b else s.adc.a
def State.setConv (s : State) (b : Bool) (c : Conv) : State :=
  { s with adc := if b then { s.adc with b := c } else { s.adc with a := c } }

/-- The converter that serves a request for converter `b`: the other where `b` is out (R397). -/
def State.inServiceConv (s : State) (b : Bool) : Bool := if (s.conv b).isOut then !b else b

/-- A request for one converter arrives. -/
def State.requestOne (s : State) (b : Bool) (r : AdcReq) : State :=
  let b := s.inServiceConv b
  let c := s.conv b
  let s := s.setConv b { c with queue := c.queue ++ [{ r with id := s.adc.nextId }] }
  { s with adc := { s.adc with nextId := s.adc.nextId + 1 } }

/-- A housekeeping reading: 4 conversions at gain 1, the first 2 discarded, the mean of the last 2 (R393). -/
def hkReq (mux : Nat) (pair : Bool) : AdcReq :=
  { id := 0, task := none, mux := mux, gain := 0, filter := 1, left := 1, urgent := true, pair := pair, check := pair, retest := none,
    housekeeping := true, cal := none, skip := 2, records := false, buffer := false, addr := 0 }

/-- A calibration reading of a group's SENSE_2g, of the same 4 conversions as a housekeeping reading (R366, R391;
notes/assumptions/87.md). -/
def calReq (g : Nat) : AdcReq := { hkReq (2 * g + 1) false with urgent := false, housekeeping := false, cal := some g }

/-- Temperature in 1/64 °C of a sensor's code at gain 1: (V - 0.600 V) / 2.000 mV per °C (Table 17.1), rounded down. -/
def codeTemp (code : Int) : Int := (code * 125 - 19200000) / 1000

end Sys2Proof.Machine
end

