-- ==== Sys2Proof/Machine/Nor.lean ====
section
/-! DEFINITION. The NOR flash, the boot directory, and images: their header, their verification, and what names the current slot
(R436 to R439). -/

namespace Sys2Proof.Machine

/-! ### Images as they are read -/

/-- An image as it is read: `n` bytes from an offset, as a little-endian number. -/
abbrev ImageReader := Nat → Nat → Nat

def hostImage (host : List Host.Cell) (addr : Nat) : ImageReader := fun off n => readLE host (addr + off) n
def listImage (bytes : List Byte) : ImageReader := fun off n => ofBytes ((bytes.drop off).take n)

/-- The bytes of an image. -/
def imageBytes (rd : ImageReader) (n : Nat) : List Byte := bytesOf n (rd 0 n)

/-- Fields of a signed image's header (Table 20.6). -/
def sgKind (rd : ImageReader) : Nat := rd 4 1
def sgRoot (rd : ImageReader) : Nat := rd 6 1
def sgVersion (rd : ImageReader) : Nat := rd 8 4
def sgPayload (rd : ImageReader) : Nat := rd 12 4
/-- The size an image has by its header. -/
def sgBytes (rd : ImageReader) : Nat := 832 + sgPayload rd
/-- The measurement: SHA-256 over header and payload (R439). -/
def sgHash (rd : ImageReader) : BitVec 256 := sha256Num (imageBytes rd (sgBytes rd))

/-- The envelope kind of a header kind (Table 20.7): 0 Clerk, 1 CSP, 2 default configuration. -/
def slotKind (kind : Nat) : Nat := if kind ≤ 1 then 0 else kind - 1

/-- The root slots that Table 20.7 permits a header kind. -/
def rootPermitted (kind root : Nat) : Bool :=
  if kind = 0 then decide (root ≤ 1) else if kind = 1 then root == 2 || root == 3 else decide (root ≤ 3)

/-- Root k as OTP holds it: slots 0 and 1 were programmed by Finmund. -/
def State.rootHash (s : State) (k : Nat) : BitVec 256 := tget (if k ≤ 1 then Config.rootHash k else 0) s.boot.roots k

/-- A root slot is programmed and not revoked. -/
def State.rootGood (s : State) (k : Nat) : Bool := s.boot.programmed.getLsbD k && !s.boot.revoked.getLsbD k

/-- The six tests of R439, for an image of an envelope kind. -/
def State.verifies (s : State) (rd : ImageReader) (envKind : Nat) : Bool :=
  let k := sgKind rd
  rd 0 4 == 0x4D474953 && rd 5 1 == 1 && decide (k ≤ 3) && slotKind k == envKind
    && rootPermitted k (sgRoot rd) && s.rootGood (sgRoot rd)
    && sha256Num (bytesOf 384 (rd 64 384)) == s.rootHash (sgRoot rd)
    && rsaPssVerify (rd 64 384) (rd 448 384) (imageBytes rd 448)
    && sha256Num (bytesOf (sgPayload rd) (rd 832 (sgPayload rd))) == BitVec.ofNat 256 (rd 16 32)
    && decide (s.boot.rollback ≤ sgVersion rd)

/-- An image of a kind as the device records it. -/
def stagedOf (rd : ImageReader) (addr : Nat) : StagedImage :=
  { sha := sgHash rd, addr := addr, bytes := sgBytes rd, kind := sgKind rd, version := sgVersion rd, root := sgRoot rd }

/-! ### The flash (R436) -/

/-- Start and size of a region (Table 20.4). -/
def State.norRegion (s : State) (r : Nat) : Nat × Nat :=
  match r with
  | 0 => (0x00000000, 0x20000)
  | 1 => (0x00020000, 0x10000)
  | 2 => (0x00030000, 0x40000)
  | 3 => (0x00070000, 0x40000)
  | 4 => (0x000B0000, 0x200000)
  | 5 => (0x002B0000, 0x200000)
  | 6 => (0x004B0000, 0x400000)
  | 7 => (0x008B0000, 0x400000)
  | 8 => (0x00CB0000, 0x100000)
  | _ => (0x01000000, 2 ^ s.boot.norLog2 - 0x01000000)

/-- A byte of the flash. -/
def State.norByte (s : State) (a : Nat) : Byte :=
  match tget none s.boot.nor a with
  | some b => b
  | none => if (a / 65536) ∈ s.boot.norErased then 0xFF#8 else Config.norByte a

/-- `n` bytes of the flash. -/
def State.norBytes (s : State) (a n : Nat) : List Byte := (List.range n).map (fun i => s.norByte (a + i))

/-- An image in the flash. -/
def State.norImage (s : State) (a : Nat) : ImageReader := fun off n => ofBytes (s.norBytes (a + off) n)

/-- A 64 KB block is erased. -/
def State.norErase (s : State) (b : Nat) : State :=
  { s with boot := { s.boot with
    nor := s.boot.nor.filter (fun e => e.1 / 65536 != b)
    norErased := if b ∈ s.boot.norErased then s.boot.norErased else b :: s.boot.norErased } }

/-- Bytes are programmed. -/
def State.norProgram (s : State) (a : Nat) : List Byte → State
  | [] => s
  | b :: bs => State.norProgram { s with boot := { s.boot with nor := tset none s.boot.nor a (some b) } } (a + 1) bs

/-! ### The boot directory (R437) -/

/-- Copy A or B of the directory where its record is valid: SEQ and CURRENT. -/
def State.dirCopy (s : State) (copy : Nat) : Option (Nat × Nat) :=
  let rd := s.norImage (65536 * copy)
  if rd 0 4 = 0x52494442 ∧ rd 60 4 = (crc32c (imageBytes rd 60)).toNat ∧ rd 64 1 = 0x3C then some (rd 4 4, rd 8 1 % 8) else none

/-- The newest valid record with the copy that holds it; none where neither is valid. -/
def State.directory (s : State) : Option (Nat × Nat × Nat) :=
  match s.dirCopy 0, s.dirCopy 1 with
  | some (q, c), some (q', c') => if q < q' then some (q', c', 1) else some (q, c, 0)
  | some (q, c), none => some (q, c, 0)
  | none, some (q', c') => some (q', c', 1)
  | none, none => none

/-- A new record goes to the copy that does not hold the newest valid one: record, check word, commit byte. -/
def State.writeDirectory (s : State) (current : BitVec 3) : State :=
  let (copy, seq) := match s.directory with
    | some (q, _, c) => (1 - c, q + 1)
    | none => (0, 0)
  let rec0 := bytesOf 60 (0x52494442 + 2 ^ 32 * (seq % 2 ^ 32) + 2 ^ 64 * current.toNat)
  let s := (s.norErase copy).norProgram (65536 * copy) (rec0 ++ bytesOf 4 (crc32c rec0).toNat ++ [0x3C#8])
  { s with boot := { s.boot with current := current } }

/-! ### Slots (R438) -/

/-- Where slot A or B of an envelope kind begins. -/
def State.slotStart (s : State) (kind slot : Nat) : Nat × Nat := s.norRegion (2 + 2 * kind + slot)

/-- The current slot of a kind. -/
def State.slotOf (s : State) (kind : Nat) : Nat := b2n (s.boot.current.getLsbD kind)

/-- The image in a slot, as its header sizes it; none where it does not fit the slot. -/
def State.slotImage (s : State) (kind slot : Nat) : Option ImageReader :=
  let (a, n) := s.slotStart kind slot
  let rd := s.norImage a
  if sgBytes rd ≤ n then some rd else none

/-- The image of a slot where it verifies. At boot a Clerk slot must hold a full bank. -/
def State.slotGood (s : State) (kind slot : Nat) : Option ImageReader :=
  match s.slotImage kind slot with
  | some rd => if s.verifies rd kind && (kind != 0 || sgKind rd == 0) then some rd else none
  | none => none

/-- An activation of a kind has applied an image: the other slot becomes current where its image has the same SHA-256. -/
def State.noteActivated (s : State) (kind : Nat) (sha : BitVec 256) : State :=
  match s.slotImage kind (1 - s.slotOf kind) with
  | some rd => if sgHash rd = sha then s.writeDirectory (s.boot.current ^^^ (1#3 <<< kind)) else s
  | none => s

/-- The first 8 bytes of a measurement, as results give them. -/
def shaHead (h : BitVec 256) : Nat := h.toNat % 2 ^ 64

/-- The tests of an image have failed: source 89 with its kind (R439). -/
def State.imageRefused (s : State) (rd : ImageReader) : State := s.fault 89 (sgKind rd)

/-! ### Images for a Branch (R434) -/

/-- An image goes to a device in BOOT_DATA frames: kind in bits 1 and 0 of a byte, bit 7 on the last frame, up to 234 data bytes (the
layout is the model's own, notes/assumptions/28.md). -/
def State.sendBoot (s : State) (dest kind : Nat) (bytes : List Byte) : State :=
  let ps := chunks 234 (bytes.length + 1) bytes
  (ps.mapIdx (fun i c => (i, c))).foldl (fun (s : State) ic =>
    s.sendBytes msgBoot dest (BitVec.ofNat 8 (kind + 128 * b2n (ic.1 + 1 == ps.length)) :: ic.2)) s

/-- The images that the Postmaster's directory names as current go to a Branch that asked for them, the Clerk's last. -/
def State.sendImages (s : State) (dest : Nat) : State :=
  [2, 1, 0].foldl (fun (s : State) k => match s.slotImage k (s.slotOf k) with
    | some rd => s.sendBoot dest k (imageBytes rd (sgBytes rd))
    | none => s) s

end Sys2Proof.Machine
end

