-- ==== Sys2Proof/Machine/Csp.lean ====
section
/-! DEFINITION. The capture signal processor (chapter 10): its memories, lanes and rounding, one meaning for each group of
operations of Table 10.3, the hardware loop, WAIT, HALT, exceptions, CSP_START and activation. A command is one operation that the
program issues; where no program is running and free to issue, it does nothing. The moves of a word that holds more than one
operation are issued first, joined to the one after them, and write as the word retires (R221, notes/assumptions/78.md). -/

namespace Sys2Proof.Machine

/-! ### Memories (Table 10.1, R218, R227) -/

def memSize : CspMem → Nat
  | .x => 262144
  | .y => 262144
  | .c => 524288

/-- Where a memory's contents stand in an image's payload, which is unpublished (R227, Config.imageByte). -/
def memPlace : CspMem → Nat
  | .x => 2 ^ 20
  | .y => 2 ^ 21
  | .c => 2 ^ 22

def memTab (c : Csp) : CspMem → Tab (Option Byte)
  | .x => c.x
  | .y => c.y
  | .c => c.c

def setMemTab (c : Csp) (m : CspMem) (t : Tab (Option Byte)) : Csp :=
  match m with
  | .x => { c with x := t }
  | .y => { c with y := t }
  | .c => { c with c := t }

/-- One byte of a memory: what has been written, else the image's. -/
def cspByte (c : Csp) (m : CspMem) (a : Nat) : Byte :=
  match tget none (memTab c m) a with
  | some b => b
  | none => match c.meas with | some h => Config.imageByte h (memPlace m + a) | none => 0

/-- `n` bytes of a memory as a little-endian number. -/
def cspRead (c : Csp) (m : CspMem) (a : Nat) : Nat → Nat
  | 0 => 0
  | n + 1 => (cspByte c m a).toNat + 256 * cspRead c m (a + 1) n

/-- Write the low `n` bytes of a number. -/
def cspWrite (c : Csp) (m : CspMem) (a : Nat) : Nat → Nat → Csp
  | 0, _ => c
  | n + 1, v => cspWrite (setMemTab c m (tset none (memTab c m) a (some (BitVec.ofNat 8 v)))) m (a + 1) n (v / 256)

/-- An access is aligned and in range. -/
def cspFits (m : CspMem) (a n align : Nat) : Bool := a % align == 0 && decide (a + n ≤ memSize m)

/-! ### Lanes -/

/-- Lanes of a form, and their width. -/
def lanesOf (wide : Bool) : Nat := if wide then 8 else 16
def laneBits (wide : Bool) : Nat := if wide then 64 else 32

def vReg (c : Csp) (i : Nat) : Nat := (tget 0 c.v i).toNat
def setV (c : Csp) (i v : Nat) : Csp := { c with v := tset 0 c.v i (BitVec.ofNat 512 v) }
def sReg (c : Csp) (i : Nat) : Nat := (tget 0 c.s i).toNat
def setS (c : Csp) (i v : Nat) : Csp := { c with s := tset 0 c.s i (BitVec.ofNat 32 v) }
def qBit (c : Csp) (q i : Nat) : Bool := (tget 0 c.q q).getLsbD i
def setQ (c : Csp) (q v : Nat) : Csp := { c with q := tset 0 c.q q (BitVec.ofNat 16 v) }
/-- The 16 lanes of an accumulator. -/
def aReg (c : Csp) (i : Nat) : List Int := (List.range 16).map (fun k => (tget [] c.a i).getD k 0)
def setA (c : Csp) (i : Nat) (l : List Int) : Csp := { c with a := tset [] c.a i (if l.all (· == 0) then [] else l) }

/-- Lane `i` of a V value. -/
def lane (wide : Bool) (v i : Nat) : Nat := fld v (laneBits wide * i) (laneBits wide)

/-- A V value from its lanes. -/
def packLanes (w : Nat) : List Nat → Nat
  | [] => 0
  | x :: xs => x % 2 ^ w + 2 ^ w * packLanes w xs

/-- A V value whose lane `i` is `f i`. -/
def makeLanes (wide : Bool) (f : Nat → Nat) : Nat := packLanes (laneBits wide) ((List.range (lanesOf wide)).map f)

/-- Bits of Q by lane; bits that no lane of the form has are free values. -/
def makeQ (wide : Bool) (free : Nat) (f : Nat → Bool) : Nat :=
  maskOf (lanesOf wide) f + (if wide then 2 ^ 8 * (free % 256) else 0)

/-! ### Rounding and saturation (R223, R224) -/

/-- `v` with `k` bits dropped, rounded half to even. -/
def roundDrop (v : Int) (k : Nat) : Int :=
  let q := v / (2 ^ k : Nat)
  let r := v - q * (2 ^ k : Nat)
  if k = 0 then v
  else if 2 * r < (2 ^ k : Nat) then q
  else if (2 ^ k : Nat) < 2 * r then q + 1
  else if q % 2 = 0 then q else q + 1

/-- A value within the signed range of `w` bits. -/
def inRange (w : Nat) (v : Int) : Bool := decide (-(2 ^ (w - 1) : Nat) ≤ v) && decide (v < (2 ^ (w - 1) : Nat))

/-- A value saturated to the signed range of `w` bits, and whether it was. -/
def satTo (w : Nat) (v : Int) : Int × Bool :=
  if inRange w v then (v, false) else (if v < 0 then -(2 ^ (w - 1) : Nat) else (2 ^ (w - 1) : Nat) - 1, true)

/-- An accumulator lane saturates at plus and minus 2^79 - 1. -/
def satAcc (v : Int) : Int × Bool :=
  let m : Int := 2 ^ 79 - 1
  if v < -m then (-m, true) else if m < v then (m, true) else (v, false)

/-- SAT is sticky. -/
def setSat (c : Csp) (b : Bool) : Csp := if b then { c with flags := c.flags ||| 1 } else c

/-! ### Issue, retirement, stops -/

/-- A program is running and free to issue. -/
def canIssue (c : Csp) : Bool := c.st == .running && c.stalled.isNone && c.waiting.isNone

/-- Loops at the end of whose body the program counter stands go round again, or end (R220). -/
def loopStep : List CspLoopRec → Nat → List CspLoopRec × Nat
  | [], pc => ([], pc)
  | l :: ls, pc =>
    if pc = l.start + 8 * l.length then
      match l.left with
      | none => ({ l with again := true } :: ls, l.start)
      | some n => if n ≤ 1 then loopStep ls pc else ({ l with left := some (n - 1), again := true } :: ls, l.start)
    else (l :: ls, pc)

/-- The program counter lies in a loop's body. -/
def inBody (l : CspLoopRec) (pc : Nat) : Bool := decide (l.start ≤ pc) && decide (pc < l.start + 8 * l.length)

/-- The word at the program counter comes from the loop cache: a cached body after its first iteration (R219, R220). -/
def inCache (c : Csp) : Bool := c.loops.any (fun l => l.cached && l.again && inBody l c.pc)

/-- One write of a move. -/
def cspLand (c : Csp) : CspWrite → Csp
  | .v i x => setV c i x.toNat
  | .s i x => setS c i x.toNat
  | .p i x => { c with p := tset 0 c.p i x }
  | .m i x => { c with m := tset 0 c.m i x }
  | .l i x => { c with l := tset 0 c.l i x }
  | .q i x => { c with q := tset 0 c.q i x }
  | .flags x => { c with flags := x }
  | .sat => setSat c true
  | .mem m a n v => cspWrite c m a n v

/-- The writes of the word's joined moves are made. -/
def landHeld (c : Csp) : Csp := { c.held.foldl cspLand c with held := [] }

/-- The word retires: its moves write, and the program counter moves to the next word. -/
def retire (c : Csp) : Csp :=
  let c := landHeld c
  let (ls, pc) := loopStep c.loops (c.pc + 8)
  { c with loops := ls, pc := pc }

/-- The CSP_START result (Table 10.6). -/
def cspResult (c : Csp) (code : Nat) : Nat :=
  c.pc % 2 ^ 32 + 2 ^ 32 * (code % 2 ^ 16) + 2 ^ 48 * (c.flags.toNat % 2 ^ 16) + 2 ^ 64 * c.popped + 2 ^ 96 * c.pushed

/-- The program leaves RUNNING and its task completes (R229). -/
def State.cspLeave (s : State) (st : CspState) (status code : Nat) : State :=
  let c := s.csp
  let s := { s with csp := { c with st := st, task := none, stalled := none, waiting := none, held := [] } }
  match c.task with
  | some id => s.completeId id status (cspResult c code)
  | none => s

/-- An exception stops the program (R230). -/
def State.cspExcept (s : State) (code : Nat) : State :=
  let s := s.fault 39 code
  ({ s with csp := { s.csp with exception := code } }).cspLeave .faulted 6 code

/-- A running program issues the word at its program counter: outside C memory or misaligned, that is an exception (R230). -/
def State.cspIssue (s : State) (act : State → State) : State :=
  if !canIssue s.csp then s
  else if !cspFits .c s.csp.pc 8 8 then s.cspExcept 2
  else act s

/-- What an operation gives: the processor with the word retired, or an exception. -/
def State.cspOut (s : State) : Except Nat Csp → State
  | .error code => s.drawn.cspExcept code
  | .ok c => { s.drawn with csp := c }

/-- One operation: it acts and its word retires, or it raises an exception. -/
def State.cspDo (s : State) (f : Csp → Nat → Except Nat Csp) : State :=
  s.cspIssue (fun s => s.cspOut ((f s.csp (s.free 26)).map retire))

/-- `n` single-bit errors corrected in the CSP's memories, each with its fault source. -/
def State.cspFixed (s : State) : Nat → State
  | 0 => s
  | n + 1 => ((s.rcAdd aCspCorr 1).fault 40 0).cspFixed n

/-- An access to `words` 64-bit words through the memory's decoder (R230). -/
def State.cspRead? (s : State) (words : Nat) (found : CspEcc) (act : State → State) : State :=
  match found with
  | .clean => act s
  | .corrected n => act (s.cspFixed (min n words))
  | .uncorrectable => if words = 0 then act s else s.cspExcept 4

/-- An operation with a memory access of `words` words. -/
def State.cspMem (s : State) (words : Csp → Nat) (found : CspEcc) (f : Csp → Nat → Except Nat Csp) : State :=
  s.cspIssue (fun s => s.cspRead? (words s.csp) found (fun s => s.cspOut ((f s.csp (s.free 26)).map retire)))

/-! ### Stream (R216, R222) -/

/-- CSP_IN: up to eight records, the count, the tags. Lanes that no record fills, and the tags' unused bits, are free values. The
tag of lane i stands in bits 4i to 4i+3: a DESIGN CHOICE (notes/assumptions/79.md). -/
def execCspIn (dst : Fin 32) (count tags : Fin 16) (s : State) : Host.Outcome State Fault Refusal :=
  .next (s.cspDo (fun c free =>
    let now := c.inQ.take 8
    let n := now.length
    let v := packLanes 64 (now.map (·.1.toNat)) + 2 ^ (64 * n) * fld free 0 (512 - 64 * n)
    let g := packLanes 4 (now.map (·.2)) + 2 ^ (4 * n) * fld free 512 (32 - 4 * n)
    let c := { c with inQ := c.inQ.drop 8, popped := satAdd 32 c.popped n }
    .ok (setS (setS (setV c dst.val v) count.val n) tags.val g)))

/-- A record as OUT pushes it: kind 7. -/
def cspRecord (v : Nat) : BitVec 64 := BitVec.ofNat 64 (7 * 2 ^ 61 + v % 2 ^ 61)

/-- Push lanes: those that find room enter the output queue; where CSP_STREAM is not open the rest are counted against it, else they
wait. -/
def State.cspPush (s : State) (rs : List (BitVec 64)) : State × List (BitVec 64) :=
  let room := 1024 - s.csp.outQ.length
  let now := rs.take room
  let rest := rs.drop room
  let closed := !(s.stream s.cspStream).isOpen
  let n := if closed then rs.length else now.length
  let s := { s with csp := { s.csp with outQ := s.csp.outQ ++ now, pushed := satAdd 32 s.csp.pushed n } }
  if closed then (s.modStream s.cspStream (fun x => { x with notOpen := x.notOpen + rest.length }), []) else (s, rest)

/-- CSP_OUT: push 1 to 8 lanes of a V register; a full queue stalls the program (R216). -/
def execCspOut (src : Fin 32) (lanes : Nat) (s : State) : Host.Outcome State Fault Refusal :=
  .next (s.cspIssue (fun s =>
    if lanes = 0 ∨ 8 < lanes then s.cspExcept 1
    else
      let (s, rest) := s.cspPush ((List.range lanes).map (fun i => cspRecord (lane true (vReg s.csp src.val) i)))
      if rest.isEmpty then { s with csp := retire s.csp } else { s with csp := { s.csp with stalled := some rest } }))

/-- CSP_OUT_RESUME: space appears, and a stalled OUT goes on. -/
def execCspOutResume (s : State) : Host.Outcome State Fault Refusal :=
  match s.csp.stalled with
  | none => .next s
  | some rs =>
    let (s, rest) := s.cspPush rs
    if rest.isEmpty then .next { s with csp := retire { s.csp with stalled := none } }
    else .next { s with csp := { s.csp with stalled := some rest } }

/-! ### Control (Table 10.3) -/

/-- CSP_WAIT: issue is suspended until the queue holds the records or the cycles run out (R222). -/
def execCspWait (records cycles : Nat) (s : State) : Host.Outcome State Fault Refusal :=
  .next (s.cspIssue (fun s =>
    if records = 0 ∨ 4096 < records then s.cspExcept 1
    else { s with csp := { s.csp with waiting := some (records, s.now + cycles * tuPerNs) } }))

/-- FLAGS with the bits whose places the spec does not give left free: all but SAT (notes/assumptions/26.md). -/
def freeFlags (c : Csp) (free : Nat) : Csp :=
  { c with flags := BitVec.ofNat 32 (putFld c.flags.toNat 1 31 free) }

/-- CSP_WAIT_END: the wait ends and its reason is placed in FLAGS. -/
def execCspWaitEnd (byCycles : Bool) (s : State) : Host.Outcome State Fault Refusal :=
  match s.csp.waiting with
  | none => .next s
  | some (n, t) =>
    let go := fun (s : State) => { s.drawn with csp := retire (freeFlags { s.csp with waiting := none } (s.free 26)) }
    if byCycles then .next (go (s.advance t))
    else if n ≤ s.csp.inQ.length then .next (go s)
    else .next s

/-- CSP_HALT: the program halts with a code, which the result holds and FLAGS takes at a place the spec does not give (R229,
Table 10.2). -/
def execCspHalt (code : BitVec 16) (s : State) : Host.Outcome State Fault Refusal :=
  .next (s.cspIssue (fun s => ({ s.drawn with csp := freeFlags (retire s.csp) (s.free 26) }).cspLeave .halted 0 code.toNat))

/-- CSP_LOOP: a hardware loop of `length` words (R220). -/
def execCspLoop (count length : Nat) (s : State) : Host.Outcome State Fault Refusal :=
  .next (s.cspDo (fun c _ =>
    if length = 0 ∨ 256 < length then .error 1
    else if count = 0 then
      let (ls, pc) := loopStep c.loops (c.pc + 8 + 8 * length)
      .ok { c with loops := ls, pc := pc - 8 }
    else if 4 ≤ c.loops.length then .error 3
    else
      let used := ((c.loops.filter (·.cached)).map (·.length)).sum
      let l : CspLoopRec := { start := c.pc + 8, length := length, left := if count = 0xFFFFFFFF then none else some count,
                              cached := decide (used + length ≤ 256), again := false }
      .ok { c with loops := l :: c.loops }))

/-- CSP_BRANCH: a branch, a call or a return; a branch out of a loop's body leaves the loop. DESIGN CHOICE
(notes/assumptions/80.md): a return leaves no loop, one begun in the subroutine included. -/
def execCspBranch (op : CspBranchOp) (s : State) : Host.Outcome State Fault Refusal :=
  .next (s.cspIssue (fun s =>
    let c := landHeld s.csp
    let ok := fun t => cspFits .c t 8 8
    match op with
    | .branch t taken =>
      if !taken then { s with csp := retire c }
      else if !ok t then s.cspExcept 2
      else { s with csp := { c with pc := t, loops := c.loops.dropWhile (fun l => inBody l c.pc && !inBody l t) } }
    | .call t =>
      if !ok t then s.cspExcept 2
      else if 8 ≤ c.calls.length then s.cspExcept 3
      else { s with csp := { c with pc := t, calls := (c.pc + 8) :: c.calls } }
    | .ret =>
      match c.calls with
      | [] => s.cspExcept 3
      | r :: rest =>
        let (ls, pc) := loopStep c.loops r
        { s with csp := { c with pc := pc, calls := rest, loops := ls } }))

/-! ### MAC, RND and ALU (R223, R224) -/

/-- One lane's product, and whether it saturated. -/
def macProduct (q31 : Bool) (a b : Int) : Int × Bool := if q31 then satTo 64 (2 * (a * b)) else (a * b, false)

/-- CSP_MAC. -/
def execCspMac (dst : Fin 8) (a b : Fin 32) (subtract q31 : Bool) (s : State) : Host.Outcome State Fault Refusal :=
  .next (s.cspDo (fun c _ =>
    let acc := aReg c dst.val
    let rs := (List.range 16).map (fun i =>
      let (p, s1) := macProduct q31 (toSigned 32 (lane false (vReg c a.val) i)) (toSigned 32 (lane false (vReg c b.val) i))
      let (v, s2) := satAcc (acc.getD i 0 + (if subtract then -p else p))
      (v, s1 || s2))
    .ok (setSat (setA c dst.val (rs.map (·.1))) (rs.any (·.2)))))

/-- CSP_RND: an accumulator, or the .D lanes of a V register, shifted right with rounding and saturated to 32 bits. The lanes above
the eight of a .D form are free values. -/
def execCspRnd (dst : Fin 32) (wide : Bool) (src : Fin 32) (k : Fin 64) (s : State) : Host.Outcome State Fault Refusal :=
  .next (s.cspDo (fun c free =>
    let vs : List Int := if wide then (List.range 8).map (fun i => toSigned 64 (lane true (vReg c src.val) i)) else aReg c (src.val % 8)
    let rs := vs.map (fun v => satTo 32 (roundDrop v k.val))
    let low := packLanes 32 (rs.map (fun r => ofSigned 32 r.1))
    .ok (setSat (setV c dst.val (low + (if wide then 2 ^ 256 * fld free 0 256 else 0))) (rs.any (·.2)))))

/-- A lane result that the spec states only within the number format: outside it, a free value (notes/assumptions/26.md). -/
def laneOr (w : Nat) (v : Int) (free : Nat) : Nat := if inRange w v then ofSigned w v else free

/-- One ALU lane; compares are apart. -/
def aluLane (op : CspAluOp) (wide : Bool) (sel : Bool) (a b free : Nat) : Nat :=
  let w := laneBits wide
  let x := toSigned w a
  let y := toSigned w b
  match op with
  | .add => laneOr w (x + y) free
  | .sub => laneOr w (x - y) free
  | .min => if y < x then b else a
  | .max => if x < y then b else a
  | .and => a &&& b
  | .or => a ||| b
  | .xor => a ^^^ b
  | .shl => laneOr w (if w ≤ b then (if x = 0 then 0 else (2 ^ w : Nat)) else x * (2 ^ b : Nat)) free
  | .shr => ofSigned w (roundDrop x (min b (w + 1)))
  | .select => if sel then a else b
  | .cmpLt => a
  | .cmpEq => a

/-- CSP_ALU: lane by lane; compares go into Q. -/
def execCspAlu (op : CspAluOp) (wide : Bool) (dst a b : Fin 32) (q : Fin 4) (s : State) : Host.Outcome State Fault Refusal :=
  .next (s.cspDo (fun c free =>
    let w := laneBits wide
    let x := fun i => lane wide (vReg c a.val) i
    let y := fun i => lane wide (vReg c b.val) i
    match op with
    | .cmpLt => .ok (setQ c q.val (makeQ wide free (fun i => decide (toSigned w (x i) < toSigned w (y i)))))
    | .cmpEq => .ok (setQ c q.val (makeQ wide free (fun i => x i == y i)))
    | _ => .ok (setV c dst.val (makeLanes wide (fun i => aluLane op wide (qBit c q.val i) (x i) (y i) (fld free (w * i) w))))))

/-! ### Moves (R218) -/

/-- A pointer after its update. In circular mode the modifier is a signed number: a DESIGN CHOICE (notes/assumptions/81.md). -/
def pointerNext (p m l : Nat) : Nat :=
  if l = 0 then (p + m) % 2 ^ 32
  else
    let z := 2 ^ Nat.clog 2 l
    let base := p - p % z
    base + (((p % z : Nat) + toSigned 32 m) % (l : Int)).toNat

/-- An access of `n` bytes through a pointer: the address and the pointer's update, or a misaligned or out-of-range access. -/
def throughPtr (c : Csp) (m : CspMem) (i n : Nat) (f : Nat → List CspWrite) : Except Nat (List CspWrite) :=
  let p := (tget 0 c.p i).toNat
  if cspFits m p n n then
    .ok (.p i (BitVec.ofNat 32 (pointerNext p (tget 0 c.m i).toNat (tget 0 c.l i).toNat)) :: f p)
  else .error 2

/-- What a move writes, from the registers and memories as they stand at its word's issue. An accumulator store drops no bits and
saturates each lane to 32 bits: a DESIGN CHOICE (notes/assumptions/82.md). -/
def moveWrites (c : Csp) : CspMoveOp → Except Nat (List CspWrite)
  | .loadV m p d => throughPtr c m p.val 64 (fun a => [.v d.val (BitVec.ofNat 512 (cspRead c m a 64))])
  | .storeV m p v => throughPtr c m p.val 64 (fun a => [.mem m a 64 (vReg c v.val)])
  | .loadS m p d => throughPtr c m p.val 4 (fun a => [.s d.val (BitVec.ofNat 32 (cspRead c m a 4))])
  | .storeS m p v => throughPtr c m p.val 4 (fun a => [.mem m a 4 (sReg c v.val)])
  | .storeA m p v =>
    let rs := (aReg c v.val).map (satTo 32)
    throughPtr c m p.val 64 (fun a =>
      .mem m a 64 (packLanes 32 (rs.map (fun r => ofSigned 32 r.1))) :: (if rs.any (·.2) then [.sat] else []))
  | .moveV d v => .ok [.v d.val (BitVec.ofNat 512 (vReg c v.val))]
  | .moveS d v => .ok [.s d.val (BitVec.ofNat 32 (sReg c v.val))]
  | .broadcast d v => .ok [.v d.val (BitVec.ofNat 512 (makeLanes false (fun _ => sReg c v.val)))]
  | .setP d v => .ok [.p d.val (BitVec.ofNat 32 (sReg c v.val))]
  | .setM d v => .ok [.m d.val (BitVec.ofNat 32 (sReg c v.val))]
  | .setL d v => .ok [.l d.val (BitVec.ofNat 32 (sReg c v.val))]
  | .setQ d v => .ok [.q d.val (BitVec.ofNat 16 (sReg c v.val))]
  | .setFlags v => .ok [.flags (BitVec.ofNat 32 (sReg c v.val))]
  | .getP d v => .ok [.s d.val (tget 0 c.p v.val)]
  | .getM d v => .ok [.s d.val (tget 0 c.m v.val)]
  | .getL d v => .ok [.s d.val (tget 0 c.l v.val)]
  | .getQ d v => .ok [.s d.val (BitVec.ofNat 32 (tget 0 c.q v.val).toNat)]
  | .getFlags d => .ok [.s d.val c.flags]
  | .nop => .ok []
  | .undefined => .error 1

/-- The 64-bit words that a move reads through a memory's decoder: a load's, the rest of a scalar store's, and of an empty slot those
of the word's own fetch, where it does not come from the loop cache. -/
def moveWords (c : Csp) : CspMoveOp → Nat
  | .loadV .. => 8
  | .loadS .. => 1
  | .storeS .. => 1
  | .nop => if inCache c then 0 else 1
  | .undefined => if inCache c then 0 else 1
  | _ => 0

/-- CSP_MOVE: a move, alone in its word or joined to the word's next operation. -/
def execCspMove (move : CspMove) (found : CspEcc) (s : State) : Host.Outcome State Fault Refusal :=
  .next (s.cspIssue (fun s => s.cspRead? (moveWords s.csp move.op) found (fun s => s.cspOut ((moveWrites s.csp move.op).map (fun ws =>
    if move.joined then { s.csp with held := s.csp.held ++ ws } else retire (ws.foldl cspLand s.csp))))))

/-! ### Records and histograms -/

/-- CSP_KIND: test [63:61] of each record into Q. -/
def execCspKind (q : Fin 4) (src : Fin 32) (kind : Fin 8) (s : State) : Host.Outcome State Fault Refusal :=
  .next (s.cspDo (fun c free =>
    .ok (setQ c q.val (makeQ true free (fun i => fld (lane true (vReg c src.val) i) 61 3 == kind.val)))))

/-- CSP_FLD: extract a bit field of each lane. -/
def execCspFld (dst src : Fin 32) (lo : Fin 64) (width : Nat) (wide : Bool) (s : State) : Host.Outcome State Fault Refusal :=
  .next (s.cspDo (fun c _ =>
    if width = 0 ∨ laneBits wide < lo.val + width then .error 1
    else .ok (setV c dst.val (makeLanes wide (fun i => fld (lane wide (vReg c src.val) i) lo.val width)))))

/-- CSP_PACK: lanes whose Q bit is set move to the bottom, their count into S; the lanes above are free values. -/
def execCspPack (dst src : Fin 32) (q : Fin 4) (count : Fin 16) (wide : Bool) (s : State) : Host.Outcome State Fault Refusal :=
  .next (s.cspDo (fun c free =>
    let w := laneBits wide
    let ls := ((List.range (lanesOf wide)).filter (qBit c q.val)).map (lane wide (vReg c src.val))
    let n := ls.length
    .ok (setS (setV c dst.val (packLanes w ls + 2 ^ (w * n) * fld free 0 (512 - w * n))) count.val n)))

/-- CSP_PREV: lane i takes lane i - 1, lane 0 the last lane of the carry register, whose last lane then takes the last of the counted
lanes. -/
def execCspPrev (dst src carry : Fin 32) (count : Fin 16) (wide : Bool) (s : State) : Host.Outcome State Fault Refusal :=
  .next (s.cspDo (fun c _ =>
    let w := laneBits wide
    let n := lanesOf wide
    let v := vReg c src.val
    let k := vReg c carry.val
    let m := min n (sReg c count.val)
    let k' := if m = 0 then k else putFld k (w * (n - 1)) w (lane wide v (m - 1))
    .ok (setV (setV c carry.val k') dst.val (makeLanes wide (fun i => if i = 0 then lane wide k (n - 1) else lane wide v (i - 1))))))

/-- Bin of a value. -/
def histBin (v bias : Int) (bins : Nat) : Nat := (min (max (v - bias) 0) ((bins : Int) - 1)).toNat

/-- CSP_HIST: for each lane under Q, one more in its 32-bit bin; a bin that would pass 2^32 - 1 takes a free value. -/
def execCspHist (src : Fin 32) (q : Fin 4) (base : Nat) (bias : Int) (bins : Nat) (wide : Bool) (found : CspEcc) (s : State) :
    Host.Outcome State Fault Refusal :=
  .next (s.cspMem (fun _ => lanesOf wide) found (fun c free =>
    if bins = 0 then .error 1
    else if !cspFits .x base (4 * bins) 4 then .error 2
    else
      let ls := (List.range (lanesOf wide)).filter (qBit c q.val)
      .ok (ls.foldl (fun c i =>
        let a := base + 4 * histBin (toSigned (laneBits wide) (lane wide (vReg c src.val) i)) bias bins
        let v := cspRead c .x a 4
        cspWrite c .x a 4 (if v + 1 < 2 ^ 32 then v + 1 else fld free (32 * i) 32)) c)))

/-! ### Trellis (R225, R226) -/

/-- m = log2 S, for a legal number of states. -/
def trellisM (n : Nat) : Option Nat := if n = 4 then some 2 else if n = 16 then some 4 else if n = 64 then some 6 else none

/-- Predecessor j of a state. -/
def trellisPred (m st j : Nat) : Nat := st / 4 + j * 2 ^ (m - 2)

/-- The smallest of four sums and the lowest j that gives it. -/
def trellisBest (f : Nat → Nat) : Nat × Nat :=
  [1, 2, 3].foldl (fun b j => if f j < b.1 then (f j, j) else b) (f 0, 0)

/-- The trellis setting in force with what a word sets. -/
def trellisSet (c : Csp) (setting : Option (Nat × Nat × Nat × Nat)) : Csp :=
  match setting with
  | some (n, bm, ring, depth) => { c with states := n, bmBase := bm, ringBase := ring, depth := depth }
  | none => c

/-- CSP_ACS: one trellis step: new path metrics, normalised by the smallest, and the decisions into the ring. What it leaves in FLAGS
is a free value but for SAT. -/
def execCspAcs (setting : Option (Nat × Nat × Nat × Nat)) (found : CspEcc) (s : State) : Host.Outcome State Fault Refusal :=
  .next (s.cspMem (fun c => 2 * (trellisSet c setting).states + 8) found (fun c free =>
    let c := trellisSet c setting
    let n := c.states
    match trellisM n with
    | none => .error 1
    | some m =>
      if c.depth < 16 ∨ 4096 < c.depth then .error 1
      else if !(cspFits .y c.bmBase (16 * n) 4 && cspFits .y c.ringBase (c.depth * (n / 4)) 1) then .error 2
      else
        let best := (List.range n).map (fun st => trellisBest (fun j =>
          satAdd 32 (tget 0 c.metrics (trellisPred m st j)) (cspRead c .y (c.bmBase + 4 * (4 * st + j)) 4)))
        let low := (best.map (·.1)).foldl min (2 ^ 32)
        let c := { c with metrics := (List.range n).foldl (fun t st => tset 0 t st ((best.getD st (0, 0)).1 - low)) [] }
        let c := cspWrite c .y (c.ringBase + c.pos % c.depth * (n / 4)) (n / 4) (packLanes 2 (best.map (·.2)))
        .ok (freeFlags { c with pos := (c.pos + 1) % c.depth } free)))

/-- The decision of a state, `back` steps before the newest. -/
def trellisDecision (c : Csp) (st back : Nat) : Nat :=
  let at_ := (c.pos + c.depth - 1 - back) % c.depth
  fld (cspRead c .y (c.ringBase + at_ * (c.states / 4) + st / 4) 1) (2 * (st % 4)) 2

/-- Walk back `n` steps: the decoded pairs, oldest first. -/
def trellisWalk (c : Csp) (m : Nat) : Nat → Nat → Nat → List Nat → List Nat
  | 0, _, _, out => out
  | n + 1, st, back, out => trellisWalk c m n (trellisPred m st (trellisDecision c st back)) (back + 1) (st % 4 :: out)

/-- Put bits, oldest first, from bit 0 of a byte address. -/
def putBits (c : Csp) (a : Nat) (bits : List Bool) : Csp :=
  ((List.range bits.length).zip bits).foldl (fun c it =>
    let b := cspRead c .x (a + it.1 / 8) 1
    cspWrite c .x (a + it.1 / 8) 1 (putFld b (it.1 % 8) 1 (b2n it.2))) c

/-- CSP_TRACE: trace back from the state of the smallest metric, or a named one, and write the decoded bits to X memory. Which of
several smallest metrics it starts from is a free value. -/
def execCspTrace (named : Option (Fin 64)) (length dst : Nat) (found : CspEcc) (s : State) : Host.Outcome State Fault Refusal :=
  .next (s.cspMem (fun _ => length + ceilDiv (2 * length) 64 + 1) found (fun c free =>
    match trellisM c.states with
    | none => .error 1
    | some m =>
      let bad := match named with | some k => decide (c.states ≤ k.val) | none => false
      if c.depth < length || bad then .error 1
      else if !cspFits .x dst (ceilDiv (2 * length) 8) 1 then .error 2
      else
        let pm := fun st => tget 0 c.metrics st
        let low := ((List.range c.states).map pm).foldl min (2 ^ 32)
        let ties := (List.range c.states).filter (fun st => pm st == low)
        let start := match named with | some k => k.val | none => ties.getD (free % ties.length) 0
        let pairs := trellisWalk c m length start 0 []
        .ok (putBits c dst (pairs.flatMap (fun p => [p.testBit 1, p.testBit 0])))))

/-! ### Starting and activating (R227 to R229) -/

/-- The address that an image's entry table gives an entry; its layout is unpublished. -/
def cspEntryAddr (c : Csp) (entry : Nat) : Nat :=
  match c.meas with
  | some h => ofBytes ((List.range 4).map (fun i => Config.imageByte h (4 * entry + i)))
  | none => 0

/-- CSP_START at its engine. -/
def engineCspStart (entry : Nat) (args : List Nat) (t : Task) (s : State) : State :=
  let c := s.csp
  if !(c.st == .loaded || c.st == .halted || c.st == .faulted) then s.complete t 4 0
  else
    let z := Csp.reset
    let c := { z with
      st := .running, x := c.x, y := c.y, c := c.c, inQ := c.inQ, inDrop := c.inDrop, outQ := c.outQ, exception := c.exception
      activatePending := c.activatePending, meas := c.meas, version := c.version, task := some t.id, pc := cspEntryAddr c entry
      s := (List.range 8).foldl (fun t i => tset 0 t i (BitVec.ofNat 32 (args.getD i 0))) [] }
    ({ s with csp := c }).release t.id

/-- CSP_START. -/
def execCspStart (h : Hdr) (entry : Nat) (args : List Nat) (s : State) : Host.Outcome State Fault Refusal :=
  .next (serve h (.cspStart entry args) (engineCspStart entry args) s)

/-- A CSP image comes into force: the memories load from it (R227). -/
def State.loadCsp (s : State) (im : StagedImage) : State :=
  let c := { s.csp with st := .loaded, x := [], y := [], c := [], activatePending := none, meas := some im.sha, version := im.version }
  { s with csp := c, boot := { s.boot with cspRoot := im.root } }

end Sys2Proof.Machine
end

