-- ==== Sys2Proof/Machine/Cal.lean ====
section
/-! DEFINITION. Calibration (chapter 16): phases, DUE, STALE and CAL_OVERDUE, replica tracking, the calibration log, the self-test
loops, and CALIBRATE. -/

namespace Sys2Proof.Machine

/-! ### Trims (Tables 16.1 to 16.3) -/

def State.setTrim (s : State) (k v : Nat) : State := { s with cal := { s.cal with trims := tset (trimNominal k) s.cal.trims k v } }
def State.setCalibrated (s : State) (k v : Nat) : State :=
  { s with cal := { s.cal with targets := tset (trimNominal k) s.cal.targets k v } }

/-- The field of a trim block, or of a group block, that holds a payload byte: its offset and size; none for a reserved byte. -/
def payloadField (p : Nat) : Option (Nat × Nat) :=
  if p < 18432 then
    let o := p % 128
    if o < 16 then some (p - p % 2, 2)
    else if o < 22 then some (p, 1)
    else if 24 ≤ o ∧ o ≤ 88 then some (p, 1)
    else if 96 ≤ o ∧ o < 104 then some (p - p % 4, 4)
    else none
  else if p < 19456 then
    let o := (p - 18432) % 64
    if o < 2 then some (p - o, 2)
    else if o < 4 then some (p - (o - 2), 2)
    else if o < 10 then some (p - (o - 4), 6)
    else if 16 ≤ o ∧ o < 48 then some (p - p % 4, 4)
    else none
  else none

/-- TRIM_LIMIT where a delay trim reaches an end of its range (source 34). -/
def State.trimLimit (s : State) (k v : Nat) : State :=
  if k % 128 < 16 ∧ k / 128 < 128 ∧ (v = 0 ∨ v = 1023) then s.fault 34 (k / 128 + 2 ^ 8 * (k % 128)) else s

/-- A delay code `v` steps away, within 0 to 1,023. -/
def moveCode (code : Nat) (steps : Int) : Nat := (min (max ((code : Int) + steps) 0) 1023).toNat

/-! ### Events and use of a group -/

/-- Event CAL_STATE of a group (Table 11.12). -/
def State.calEvent (s : State) (g : Nat) (full : Bool) : State :=
  let x := s.group g
  s.event 0x000C g (b2n (isOverdue x) + 2 * b2n x.isStale + 4 * b2n full)

/-- An internal phase waits or runs on the group. -/
def hasInternal (x : Group) : Bool := x.queue.any (fun p => p.phase == 0)

/-- An internal phase is to run on the group, on nobody's request. -/
def State.wantInternal (s : State) (g : Nat) : State :=
  s.modGroup g (fun x => if hasInternal x then x else
    { x with queue := x.queue ++ [{ phase := 0, inPlace := false, started := false, task := none }] })

/-- Mean of the group's last readings, in 1/64 °C; the sum is compared where exactness matters. -/
def groupMean (x : Group) : Int := if x.temps.isEmpty then x.calTemp else x.temps.sum / (x.temps.length : Int)

/-- CAL_DT in 1/64 °C. -/
def State.calDt (s : State) : Int := fld (s.reg aCalDt) 0 8 * 8

/-- A group becomes DUE (R370); an asleep group keeps its trims. -/
def State.becomeDue (s : State) (g : Nat) : State :=
  let x := s.group g
  if x.due || s.isAsleep g then s
  else (s.setGroup g { x with due := true, dueSince := s.now }).wantInternal g

/-! ### The log (R376 to R380) -/

/-- A group's block of the record in force (Table 16.3). -/
def State.groupFields (s : State) (g : Nat) : List (Nat × Nat) :=
  let x := s.group g
  let b := 18432 + 64 * g
  [(b, ofSigned 16 x.calTemp), (b + 2, x.phases.toNat), (b + 4, x.calSeconds)]
    ++ (List.range 8).map (fun q => (b + 16 + 4 * q, ofSigned 32 (tget 0 s.cal.model (8 * g + q))))

/-- The fields that a record stored now holds: the calibrated values and the group blocks. -/
def State.recordFields (s : State) : Tab Nat := s.cal.targets ++ (List.range 16).flatMap s.groupFields

/-- Blocks of the log left in use. -/
def blocksInUse (bad : BitVec 16) : Nat := (List.range 16).countP (fun b => !bad.getLsbD b)

/-- The next block in use after block `b`. -/
def nextBlock (bad : BitVec 16) (b : Nat) : Nat :=
  ((List.range 16).find? (fun i => !bad.getLsbD ((b + 1 + i) % 16))).elim b (fun i => (b + 1 + i) % 16)

/-- The slot at or after `slot` whose block is in use. -/
def usableSlot (bad : BitVec 16) (slot : Nat) : Nat := if bad.getLsbD (slot / 2) then 2 * nextBlock bad (slot / 2) else slot

/-- The newest record of a list. -/
def newestRecord (l : List CalRecord) : Option CalRecord :=
  l.foldl (fun m r => match m with | some x => if x.seq < r.seq then some r else some x | none => some r) none

/-- Map out the block of the next slot: its read-back failed (R379). -/
def State.mapOut (s : State) : State :=
  let c := s.cal
  let b := usableSlot c.badBlocks c.slot / 2
  let bad := c.badBlocks ||| (1 <<< b)
  ({ s with cal := { c with badBlocks := bad, slot := 2 * nextBlock bad b } }).fault 87 b

/-- Append a record to the log: the state and whether it was written. Fewer than 4 blocks left in use write nothing. -/
def State.appendRecord (s : State) : Nat → State × Bool
  | 0 =>
    let c := s.cal
    if blocksInUse c.badBlocks < 4 then (s, false)
    else
      let slot := usableSlot c.badBlocks c.slot
      let newest := newestRecord c.log
      let r : CalRecord := {
          seq := (newest.map (·.seq + 1)).getD 0, genB := (newest.map (fun x => !x.genB)).getD false, slot := slot,
          seconds := s.ptuNow / tuPerSec, bad := c.badBlocks.toNat, words := s.recordFields }
      let ahead := nextBlock c.badBlocks (slot / 2)
      let log := c.log.filter (fun x => x.slot != slot && !(slot % 2 == 0 && x.slot / 2 == ahead))
      ({ s with cal := { c with log := log ++ [r], inForce := some r, slot := if slot % 2 = 0 then slot + 1 else 2 * ahead } }, true)
  | n + 1 => if blocksInUse s.cal.badBlocks < 4 then (s, false) else State.appendRecord s.mapOut n

/-- A record becomes the record in force: its trims and group blocks load, and every group is STALE (R371, R378). -/
def State.loadRecord (s : State) (r : CalRecord) : State :=
  let trims := r.words.filter (fun e => e.1 < 18432)
  let at_ := fun k => tget 0 r.words k
  let s := { s with cal := { s.cal with
    trims := trims, targets := trims, delta := [], inForce := some r
    model := (List.range 128).foldl (fun t i => tset 0 t i (toSigned 32 (at_ (18432 + 64 * (i / 8) + 16 + 4 * (i % 8))))) [] } }
  (List.range 16).foldl (fun s g =>
    let b := 18432 + 64 * g
    let x := s.group g
    let s := s.setGroup g { x with
        calTemp := toSigned 16 (at_ b), phases := BitVec.ofNat 3 (at_ (b + 2)), calSeconds := at_ (b + 4), isStale := true }
    if x.isStale then s else s.calEvent g false) s

/-- CAL_CMD.STORE. -/
def execCalCmdStore (fails : Nat) (s : State) : Host.Outcome State Fault Refusal := .next (s.appendRecord fails).1

/-- CAL_CMD.RESTORE_PREV: the newest valid record of the other generation loads, provided every group is asleep or in no site that
is not IDLE; else it is ignored (R378). -/
def execCalCmdRestorePrev (s : State) : Host.Outcome State Fault Refusal :=
  let free := (List.range 16).all (fun g => s.isAsleep g || !s.groupIn g (· != .idle))
  match s.cal.inForce with
  | none => .next s
  | some f =>
    match newestRecord (s.cal.log.filter (fun r => r.genB != f.genB)) with
    | some r => .next (if free then s.loadRecord r else s)
    | none => .next s

/-- The bytes of a record as its slot holds them (R376, Table 16.6). The device block is the part's own. -/
def recordByte (r : CalRecord) (p : Nat) : Byte :=
  match payloadField p with
  | some (k, _) => BitVec.ofNat 8 (tget (trimNominal k) r.words k / 2 ^ (8 * (p - k)))
  | none => if p < 19456 then 0 else Config.imageByte 0 p

def recordBytes (r : CalRecord) : List Byte :=
  let head := 0x4C414343 + 2 ^ 32 * r.seq + 2 ^ 64 * b2n r.genB + 2 ^ 80 * r.bad + 2 ^ 96 * Config.serial.toNat + 2 ^ 160 * (r.seconds % 2 ^ 48)
  let all := bytesOf 32 head ++ (List.range 24576).map (recordByte r)
  all ++ bytesOf 4 (crc32c all).toNat ++ [0x3C]

/-! ### Phases (R363 to R368) -/

/-- A calibration script as its registers hold it (Table 16.8). -/
def State.calScriptText (s : State) (k : Nat) : Nat :=
  (List.range 128).foldl (fun v i => v + 2 ^ (32 * i) * s.reg (0x9800 + 0x200 * k + 4 * i)) 0

/-- A calibration script plays on a group's port, SUBST ignored: slot 4 + k stands for CAL_SCRIPT_k. -/
def State.calScript (s : State) (g k : Nat) : State :=
  let v := s.calScriptText k
  (s.rcAdd (aPecPlays g) 1).emit (.peScript g (4 + k) (scriptMode3 v) (scriptDiv v) (scriptTransfers v none))

/-- CALIBRATE completes once its last group has (R372); its counts stand in the task: groups done, and stopped. -/
def State.calTaskDone (s : State) (id fails : Nat) : State :=
  match s.task id with
  | none => s
  | some t =>
    if (List.range 16).any (fun g => (s.group g).queue.any (fun p => p.task == some id)) then s
    else
      let store := match t.op with | .calibrate _ _ store _ => store | _ => false
      let stopped := t.due / 65536
      let (s, ok) := if store then s.appendRecord fails else (s, true)
      let seq := if store && ok then (s.cal.inForce.map (·.seq)).getD 0 else 0
      let st := if !ok then 6 else if stopped = 0 then 0 else 8
      s.complete t st (t.due % 65536 + 2 ^ 16 * stopped + 2 ^ 32 * seq)

/-- A group's part of a CALIBRATE ends: done, or stopped. -/
def State.calCount (s : State) (task : Option Nat) (g : Nat) (ok : Bool) (fails : Nat) : State :=
  match task with
  | none => s
  | some id =>
    if ok && (s.group g).queue.any (fun p => p.task == some id) then s
    else (s.modTask id (fun t => { t with due := t.due + (if ok then 1 else 65536) })).calTaskDone id fails

/-- A phase stops on its signature: its later phases go, the group is CAL_OVERDUE, the source asserts (R368). -/
def State.missPhase (s : State) (g : Nat) (p : PhaseRun) (fails : Nat) : State :=
  let x := s.group g
  let s := s.setGroup g { x with
      missed := x.missed ||| (1 <<< p.phase), peCal := false
      queue := x.queue.filter (fun q => !q.started && !(p.task.isSome && q.task == p.task)) }
  ((s.fault 32 (g + 2 ^ 8 * p.phase)).calEvent g false).calCount p.task g false fails

/-- LB_RT is valid on every channel of the group (R367). -/
def State.loopbackValid (s : State) (g : Nat) : Bool := (List.range 8).all (fun i => (s.calibrated ((8 * g + i) * 128 + 100)).testBit 31)

/-- PHASE_START: the next phase on a group begins where R22, the port and the limit of four groups allow (R363, R364). An internal
phase does not wait behind a loopback or fixture phase that R22 holds (R22). -/
def execPhaseStart (g : Fin 16) (s : State) : Host.Outcome State Fault Refusal :=
  let x := s.group g.val
  match s.nextPhase g.val with
  | none => .next s
  | some p =>
    let rest := x.queue.erase p
    let inPlace := p.phase == 0 && s.groupIn g.val inUse
    if !inPlace && decide (4 ≤ s.busyPhases) then .next s
    else if p.phase = 0 then .next (s.setGroup g.val { x with queue := { p with started := true, inPlace := inPlace } :: rest })
    else if portHeld x then .next s
    else
      let s := s.setGroup g.val { x with queue := { p with started := true } :: rest, peCal := true, sense := none }
      let s := (s.calScript g.val (if p.phase = 1 then 0 else 2)).requestOne false (calReq g.val)
      if p.phase = 2 && !s.loopbackValid g.val then .next ((s.missPhase g.val { p with started := true } 0).calScript g.val 3)
      else .next s

/-- The phase that runs on a group ends: it leaves the queue. -/
def endPhase (x : Group) (p : PhaseRun) : Group :=
  { x with queue := x.queue.filter (fun q => !q.started), peCal := if p.phase = 0 then x.peCal else false,
           phases := x.phases ||| (1 <<< p.phase), missed := x.missed &&& ~~~(1#3 <<< p.phase) }

/-- A loopback or fixture phase completes on a group; where CAL_OVERDUE clears with it, that is reported (R368). -/
def State.phaseDone (s : State) (g : Nat) (p : PhaseRun) : State :=
  let was := isOverdue (s.group g)
  let s := s.modGroup g (fun x => endPhase x p)
  if was && !isOverdue (s.group g) then s.calEvent g false else s

/-- The model's prediction of a quantity's change, in 1/65,536 step. -/
def State.predicted (s : State) (g q : Nat) : Int :=
  tget 0 s.cal.model (8 * g + q) * (groupMean (s.group g) - (s.group g).calTemp) / 64

/-! ### What the in-place form measures (R365) -/

/-- The trim bytes that the in-place form measures on a channel: delay, strobe and TDC codes, DUTY of DH and DE. -/
def inPlaceFields : List Nat := [0, 2, 4, 6, 8, 10, 12, 14, 16, 17]

/-- The trim of a channel that an edge of a waveform entry uses. -/
def edgeUses (de level : Bool) (off : Nat) : Bool :=
  off == (if de then 4 else 0) + (if level then 0 else 2) || (!level && off == 16 + b2n de)

/-- An edge that a waveform entry enables uses a quantity of its channel: of DE and DH by transition, whatever the data; of the main
samplers with a strobe, of the offset sampler where ES takes its samples (R360, R365). -/
def entryUses (cv : Tab Nat) (k c e w off : Nat) : Bool :=
  let t := cvTset cv c (weTset w)
  let sb := chanOn cv k c mSB
  [false, true].any (fun b => (driveEdges sb (cvPeriod cv k e) w t (List.replicate 4 b)).any (fun d => edgeUses (d.1 == .de) d.2.2.2 off))
    || ((weEn w 4 || weEn w 5) && (off == 8 || off == 10 || (off == 12 && chanOn cv k c mES)))

/-- A reachable waveform entry of a channel uses a quantity (R365). -/
def State.quantityUsed (s : State) (c off : Nat) : Bool :=
  match s.siteOf c with
  | none => false
  | some k => ((reachable s.cv k).map (cvSeg s.cv)).any (fun e =>
      (reachEntries s.cv k c e).any (fun i => entryUses s.cv k c e (cvEntry s.cv c (segBank e) i) off))

/-- The quantities of a group that a phase's measurements leave out: channel and byte offset. -/
def unmeasured (g : Nat) (codes : List (Nat × Nat × Nat × Nat)) : List (Nat × Nat) :=
  (List.range 8).flatMap (fun i =>
    (inPlaceFields.filter (fun off => !codes.any (fun e => e.1 == 8 * g + i && e.2.1 == off))).map (fun off => (8 * g + i, off)))

/-- The replica is found within 64 steps of its prediction: its trims as measured against their last calibrated values (R375). -/
def State.replicaNear (s : State) (g : Nat) (codes : List (Nat × Nat × Nat × Nat)) : Bool :=
  (List.range 8).all (fun q => match codes.find? (fun e => e.1 == 128 + g && e.2.1 == 2 * q) with
    | some e => decide ((((e.2.2.1 : Int) - s.calibrated ((128 + g) * 128 + 2 * q)) * 65536 - s.predicted g q).natAbs ≤ 64 * 65536)
    | none => false)

/-- The bytes that an internal phase writes: all but FIX_D and LB_RT, in place only delay, strobe, duty and TDC trims (Table 16.4). -/
def internalWrites (inPlace : Bool) (off : Nat) : Bool := if inPlace then decide (off < 18) else decide (off < 89)

/-- A full calibration of a group (R370, R375): its temperature and time, the thermal model refitted over a change of at least
1 °C, the replica deltas reset, DUE, STALE and CAL_OVERDUE cleared. -/
def State.fullCalibration (s : State) (g : Nat) (fails : Nat) : State :=
  let x := s.group g
  let t := groupMean x
  let dt := t - x.calTemp
  let model := if dt.natAbs < 64 || x.replicaOut then s.cal.model else
    (List.range 8).foldl (fun m q =>
      let d := tget 0 s.cal.delta (8 * g + q) * 65536 * 64
      let n := if dt < 0 then -d else d
      tset 0 m (8 * g + q) (if n < 0 then -(roundEven n.natAbs dt.natAbs : Int) else (roundEven n.natAbs dt.natAbs : Int))) s.cal.model
  let delta := (List.range 8).foldl (fun m q => tset 0 m (8 * g + q) 0) s.cal.delta
  let s := { s with cal := { s.cal with model := model, delta := delta } }
  let s := s.setGroup g { x with
      calTemp := t, calSeconds := s.ptuNow / tuPerSec, due := false, isStale := false, overdue := false, deferred := false
      isPartial := false }
  let s := s.calEvent g true
  let due := match s.cal.lastAuto with | some l => decide (l + 600 * tuPerSec ≤ s.now) | none => true
  if (s.reg aCalCtrl).testBit 2 && due then
    let s := { s with cal := { s.cal with lastAuto := some s.now } }
    (s.appendRecord fails).1
  else s

/-- A number divided by a power of two, rounded half to even. -/
def divEven (v : Int) (k : Nat) : Int := roundDrop v k

/-- A trim moves by steps, in its applied and its calibrated value. -/
def State.shiftTrim (s : State) (k : Nat) (steps : Int) : State :=
  let v := moveCode (s.trim k) steps
  ((s.setTrim k v).setCalibrated k (moveCode (s.calibrated k) steps)).trimLimit k v

/-- A measured word goes into a channel's block. -/
def State.putWord (s : State) (k v : Nat) : State := (s.setTrim k v).setCalibrated k v

/-- The SENSE reading, a code of 1/256 mV, lies within CAL_LEVEL (R366, R384). -/
def State.senseOk (s : State) (code : Int) : Bool :=
  let v := s.reg 0x9024
  decide (256 * toSigned 16 (fld v 0 16) ≤ code) && decide (code ≤ 256 * toSigned 16 (fld v 16 16))

/-- A loopback phase's signature (R366): every channel of the group, both round trips within the window. -/
def State.loopbackOk (s : State) (g : Nat) (sense : Int) (trips : List (Fin 128 × Bool × Nat × Nat)) : Bool :=
  let lo := 4096 * fld (s.reg 0x9018) 0 24
  let hi := lo + 4096 * fld (s.reg 0x901C) 0 9
  let good := fun v => decide (lo ≤ v) && decide (v ≤ hi)
  s.senseOk sense && (List.range 8).all (fun i => match trips.find? (fun t => t.1.val == 8 * g + i) with
    | some t => good t.2.2.1 && good t.2.2.2
    | none => false)

/-- The trims of one channel from its loopback round trips (R366). -/
def State.loopbackTrims (s : State) (t : Fin 128 × Bool × Nat × Nat) : State :=
  let b := t.1.val * 128
  let split := fld (s.reg 0x9020) 0 10
  let target : Int := 8192 * fld (s.reg 0x9018) 0 24 + 4096 * fld (s.reg 0x901C) 0 9
  let dr := 2 * (t.2.2.1 : Int) - target
  let df := 2 * (t.2.2.2 : Int) - target
  let s := s.shiftTrim b (-divEven (split * dr) 22)
  let s := s.shiftTrim (b + 2) (-divEven (split * df) 22)
  let s := s.shiftTrim (b + if t.2.1 then 10 else 8) (-divEven ((1024 - (split : Int)) * (dr + df)) 23)
  s.putWord (b + 100) (2 ^ 31 + roundEven (t.2.2.1 + t.2.2.2) 8192 % 2 ^ 24)

/-- A fixture phase's signature (R367). -/
def State.fixtureOk (s : State) (g : Nat) (sense : Int) (refl : List (Fin 128 × Bool × Int)) : Bool :=
  let positive := !(s.reg 0x9028).testBit 0
  s.senseOk sense && (List.range 8).all (fun i => match refl.find? (fun t => t.1.val == 8 * g + i) with
    | some t => t.2.1 == positive && decide ((fld (s.reg 0x902C) 0 24 : Int) ≤ t.2.2) && decide (t.2.2 ≤ (fld (s.reg 0x9030) 0 24 : Int))
    | none => false)

/-- d(c) of a channel (R367). -/
def State.fixtureDelay (s : State) (t : Fin 128 × Bool × Int) : Int :=
  divEven (t.2.2 - (fld (s.calibrated (t.1.val * 128 + 100)) 0 24 : Int)) 1

/-- A deskew word (Table 2.8); a magnitude beyond its 18 bits is a free value (notes/assumptions/27.md). -/
def deskewWord (v : Int) (free : Nat) : Nat := (if v.natAbs < 2 ^ 18 then v.natAbs else fld free 0 18) + (if v < 0 then 2 ^ 18 else 0)

/-- The fixture phase's deskew write: K_D = R - d, K_C = R + d, applied in place as a commit (R367). -/
def State.fixtureCommit (s : State) (ds : List (Nat × Int)) : State :=
  let r : Int := fld (s.reg 0x9034) 0 18
  let put := fun (cv : Tab Nat) => ds.foldl (fun cv (d : Nat × Int) =>
    let w := itemOf cv 9 d.1
    setItem cv 9 d.1 (putFld (putFld w 0 32 (deskewWord (r - d.2) (s.free 27 / 2 ^ (36 * d.1)))) 32 32
      (deskewWord (r + d.2) (s.free 27 / 2 ^ (36 * d.1 + 18))))) cv
  { s.drawn with cfg := { s.cfg with
    committed := put s.cfg.committed, commitSeq := (s.cfg.commitSeq + 1) % 2 ^ 32
    pending := s.cfg.pending.map (fun p => { p with old := put p.old }) } }

/-- The last internal phase that boot asked for has ended: READY (R378, R432). -/
def State.bootPhaseDone (s : State) : State :=
  if s.boot.stage == 4 && s.boot.calWait && (List.range 16).all (fun g => !hasInternal (s.group g)) then
    State.noteStatus { s with boot := { s.boot with stage := 5, calWait := false } }
  else s

/-- PHASE_COMPLETE. A loopback or fixture phase waits for its SENSE reading (R366, R367). -/
def execPhaseComplete (g : Fin 16) (m : PhaseMeas) (fails : Nat) (s : State) : Host.Outcome State Fault Refusal :=
  let g := g.val
  match (s.group g).queue.find? (·.started) with
  | none => .next s
  | some p =>
    match p.phase, m, (s.group g).sense with
    | 0, .internal codes, _ =>
      let codes := if p.inPlace then codes.filter (fun e => decide (1024 ≤ e.2.2.2)) else codes
      let mine := codes.filter (fun e => internalWrites p.inPlace e.2.1 && (e.1 / 8 == g || e.1 == 128 + g))
      let near := s.replicaNear g codes
      let missing := if p.inPlace then unmeasured g codes else []
      let s := mine.foldl (fun s (e : Nat × Nat × Nat × Nat) =>
        let k := e.1 * 128 + e.2.1
        let s := s.setCalibrated k e.2.2.1
        let s := if p.inPlace then s else s.setTrim k e.2.2.1
        s.trimLimit k e.2.2.1) s
      let s := s.modGroup g (fun x => endPhase x p)
      if missing.any (fun m => s.quantityUsed m.1 m.2) then
        .next ((s.modGroup g (fun x => { x with isPartial := true, due := true, dueSince := if x.due then x.dueSince else s.now, rerunAt := s.now + 64 * tuPerTick })).calCount p.task g true fails)
      else
        let s := s.fullCalibration g fails
        let s := s.modGroup g (fun x => { x with
          isPartial := !missing.isEmpty, replicaOut := x.replicaOut && !(near && !p.inPlace) })
        .next (s.calCount p.task g true fails).bootPhaseDone
    | 1, .loopback trips, some sense =>
      if !s.loopbackOk g sense trips then .next ((s.missPhase g p fails).calScript g 1)
      else
        let s := (trips.filter (fun t => t.1.val / 8 == g)).foldl (fun s t => s.loopbackTrims t) s
        .next (((s.phaseDone g p).calScript g 1).calCount p.task g true fails)
    | 2, .fixture refl, some sense =>
      if !s.fixtureOk g sense refl then .next ((s.missPhase g p fails).calScript g 3)
      else
        let ds := (refl.filter (fun t => t.1.val / 8 == g)).map (fun t => (t.1.val, s.fixtureDelay t))
        let s := ds.foldl (fun s d => s.putWord (d.1 * 128 + 96) (2 ^ 31 + ofSigned 24 d.2)) s
        let s := if (s.reg aCalCtrl).testBit 4 then s.fixtureCommit ds else s
        .next (((s.phaseDone g p).calScript g 3).calCount p.task g true fails)
    | _, _, _ => .next s

/-! ### DUE, overdue, stale (R365, R370, R371) -/

/-- A reading of a group's temperature: DUE by temperature or age, STALE while asleep (R370, R371). -/
def State.groupTemperature (s : State) (g : Nat) (temp : Int) : State :=
  let s := s.modGroup g (fun x => { x with temps := (temp :: x.temps).take 8 })
  let x := s.group g
  let n : Int := x.temps.length
  let hot := (s.reg aCalCtrl).testBit 0 && decide (s.calDt * n < ((x.temps.sum - x.calTemp * n).natAbs : Int))
  let age := fld (s.reg aCalMaxAge) 0 16
  let old := age != 0 && decide (age * 60 < s.ptuNow / tuPerSec - x.calSeconds)
  let s := if hot || old then s.becomeDue g else s
  if x.asleepAt.isSome && !x.isStale && decide (s.calDt < ((temp - x.asleepTemp).natAbs : Int)) then
    (s.modGroup g (fun x => { x with isStale := true })).calEvent g false
  else s

/-- A group's sensor as the Clerk reads it, in 1/64 °C: its latest housekeeping reading, and the sensor itself where none has been taken
(R370, R393). -/
def State.sensorReading (s : State) (g : Nat) (temp : Int) : Int :=
  let w := tget 0 s.adc.hk (33 + g)
  if w = 0 then temp else codeTemp (sfld w.toNat 0 20)

/-- GROUP_TEMPERATURE_READ: every 10 ms the Clerk reads a group's sensor (R370, R371). -/
def execGroupTemperatureRead (g : Fin 16) (temp : Int) (s : State) : Host.Outcome State Fault Refusal :=
  .next ((s.periodic (40 + g.val) (40 * tuPerTick)).groupTemperature g.val (s.sensorReading g.val temp))

/-- CAL_OVERDUE: a group has been DUE for more than 1 s (R370). -/
def execCalOverdue (g : Fin 16) (s : State) : Host.Outcome State Fault Refusal :=
  let x := s.group g.val
  if !x.due || x.overdue then .next s
  else
    let s := (s.advance (x.dueSince + tuPerSec + 1)).setGroup g.val { x with overdue := true }
    .next ((s.fault 33 g.val).calEvent g.val false)

/-- STALE: 10 s after it fell asleep a group is STALE (R371). -/
def execStale (g : Fin 16) (s : State) : Host.Outcome State Fault Refusal :=
  let x := s.group g.val
  match x.asleepAt with
  | none => .next s
  | some t =>
    if x.isStale then .next s
    else .next (((s.advance (t + 10 * tuPerSec)).setGroup g.val { x with isStale := true }).calEvent g.val false)

/-- IN_PLACE_RERUN: a DUE group left PARTIAL runs its internal phase again (R365). -/
def execInPlaceRerun (g : Fin 16) (s : State) : Host.Outcome State Fault Refusal :=
  let x := s.group g.val
  if !(x.due && x.isPartial) || hasInternal x then .next s
  else .next ((s.advance x.rerunAt).wantInternal g.val)

/-- CAL_GROUP_CTRL_g.SLEEP written: set only while every site with a channel of the group is IDLE, cleared always (R371). -/
def execCalGroupCtrlSleep (g : Fin 16) (set : Bool) (s : State) : Host.Outcome State Fault Refusal :=
  if set && s.groupIn g.val (· != .idle) then .next s
  else .next (s.setReg (aCalGroupCtrl g.val) (b2n set)).syncSleep

/-! ### Replica tracking (R373 to R375) -/

/-- Δq of a group as tracking uses it: the replica's, or the model's where the replica is out of service. -/
def State.deltaOf (s : State) (g q : Nat) : Int :=
  if (s.group g).replicaOut then s.predicted g q / 65536 else tget 0 s.cal.delta (8 * g + q)

/-- How far a quantity's target lies from its applied trim, in 1/128 step (R373). -/
def State.trimGap (s : State) (c q : Nat) : Int :=
  128 * (s.calibrated (c * 128 + 2 * q) : Int) + toSigned 8 (s.calibrated (c * 128 + 88)) * s.deltaOf (c / 8) q
    - 128 * (s.trim (c * 128 + 2 * q) : Int)

/-- TRACK_LAG and LAG of a group (R374). -/
def State.lagCheck (s : State) (g : Nat) : State :=
  let gap := (List.range 64).foldl (fun m i => max m (s.trimGap (8 * g + i / 8) (i % 8)).natAbs) 0
  s.modGroup g (fun x => { x with
    lag := min 255 (ceilDiv gap 128), trackLag := if 512 < gap then true else if gap ≤ 128 then false else x.trackLag })

/-- The replica has failed, or left its prediction: the slice goes out of service (R375). -/
def State.loseReplica (s : State) (g : Nat) : State :=
  if (s.group g).replicaOut then s else (s.modGroup g (fun x => { x with replicaOut := true })).fault (16 + g) 0

/-- The walker may step a quantity of a channel now, and when (R373): at a vector boundary of its site, or in place where the site is
IDLE, STARVED or PARKED or there is none; never in ARMED or DRAIN. -/
def State.stepMoment (s : State) (c q : Nat) : Option (Nat × Nat) :=
  let last := tget (0, 0) s.cal.stepped (8 * c + q)
  let fresh := last == (0, 0)
  match s.siteOf c with
  | some k =>
    let x := s.site k
    let w := s.site (s.leadSite k)
    if x.st == .run || x.st == .hold then
      if fresh || decide (last.1 < w.epoch) || decide (last.2 + 2048 ≤ w.ord) then some (w.epoch + w.acc, w.ord) else none
    else if x.st == .armed || x.st == .drain then none
    else some (if fresh then s.now else max s.now (last.1 + 4 * tuPerUs), 0)
  | none => some (if fresh then s.now else max s.now (last.1 + 4 * tuPerUs), 0)

/-- Address of the DUTY byte that goes with a quantity of a channel: DH's with DH_FALL, DE's with DE_FALL (Table 16.1). -/
def dutyByte (c q : Nat) : Option Nat := if q = 1 then some (c * 128 + 16) else if q = 3 then some (c * 128 + 17) else none

/-- How far that DUTY lies from the value that an in-place phase has measured. -/
def State.dutyGap (s : State) (c q : Nat) : Int :=
  match dutyByte c q with
  | some k => toSigned 8 (s.calibrated k) - toSigned 8 (s.trim k)
  | none => 0

/-- One step of a quantity towards its target; at its target, of the DUTY that goes with it (DESIGN CHOICE, notes/assumptions/95.md). -/
def State.walkTrim (s : State) (c q : Nat) (gap : Int) : State :=
  let k := c * 128 + 2 * q
  if 64 < gap.natAbs then
    let v := moveCode (s.trim k) (if gap < 0 then -1 else 1)
    (s.setTrim k v).trimLimit k v
  else
    match dutyByte c q with
    | some d => s.setTrim d (ofSigned 8 (toSigned 8 (s.trim d) + (s.dutyGap c q).sign))
    | none => s

/-- TRIM_STEP: with BC on, one quantity of one channel takes one step towards its target (R373). -/
def execTrimStep (c : Fin 128) (q : Fin 8) (delta : Int) (s : State) : Host.Outcome State Fault Refusal :=
  let c := c.val
  let q := q.val
  let g := c / 8
  let s := { s with cal := { s.cal with delta := tset 0 s.cal.delta (8 * g + q) delta } }
  let s := if (64 * 65536 : Int) < ((delta * 65536 - s.predicted g q).natAbs : Int) then s.loseReplica g else s
  let busy := (s.group g).queue.any (fun p => p.started && !p.inPlace)
  match s.stepMoment c q with
  | none => .next (s.lagCheck g)
  | some (t, n) =>
    let gap := s.trimGap c q
    if !s.deviceMode.testBit mBC || busy || (decide (gap.natAbs ≤ 64) && s.dutyGap c q == 0) then .next (s.lagCheck g)
    else
      let s := (s.advance t).walkTrim c q gap
      .next ({ s with cal := { s.cal with stepped := tset (0, 0) s.cal.stepped (8 * c + q) (t, n) } }.lagCheck g)

/-- REPLICA_OUT: the replica's measurement has failed to complete for 4 ticks (R375). -/
def execReplicaOut (g : Fin 16) (s : State) : Host.Outcome State Fault Refusal := .next (s.loseReplica g.val)

/-! ### Self-test loops (R381, R382) -/

/-- LOOP of a group, and the entry script it plays, if any (Table 16.7). -/
def loopScript (ctrl : Nat) : Option Nat := match fld ctrl 1 2 with | 0 => some 0 | 3 => some 2 | _ => none

/-- Time of a bit of a loop's pattern: 16, 8, 4 or 2 Gb/s (R381). -/
def loopBit (ctrl : Nat) : Nat := 500 * 2 ^ fld ctrl 5 2

/-- Bit `n` that the channels' generators send in a loop: PRBS7, PRBS15, PRBS23 or PRBS31 (R381). -/
def loopPatternBit (ctrl n : Nat) : Bool := patternBit (fld ctrl 3 2) 0 n

/-- The checkers of a group count errors in a row of times: each a number of bits, and when they seek their lock again. -/
def State.loopErrors (s : State) (g n from_ : Nat) : State :=
  ((List.range 8).foldl (fun (s : State) i => s.rcAdd (aCalLoopErr (8 * g + i)) n) s).modGroup g (fun x => { x with loopFrom := from_ })

/-- Repeated injection in a running loop up to now: every N-th bit is inverted, and the checkers count what they see once they are locked
(R381). -/
def State.settleLoop (s : State) (g : Nat) : State :=
  let x := s.group g
  let ctrl := s.reg (aCalLoopCtrl g)
  if !x.loopRun then s
  else
    let s := s.setGroup g { x with loopInj := s.now }
    if !ctrl.testBit 8 then s
    else
      let e := injectedErrors (loopBit ctrl) (fld ctrl 16 16 + 1) x.loopFrom x.loopInj s.now
      s.loopErrors g e.1 e.2

/-- CAL_LOOP_CTRL_g.RUN set: the loop starts where R22 lets a loopback phase begin, else it is refused. -/
def execCalLoopRunSet (g : Fin 16) (s : State) : Host.Outcome State Fault Refusal :=
  let g := g.val
  let x := s.group g
  let ctrl := s.reg (aCalLoopCtrl g)
  if x.loopRun then .next s
  else if !s.r22 g || x.queue.any (·.started) || ((loopScript ctrl).isSome && portHeld x) then .next (s.setGroup g { x with loopRefused := true })
  else
    let s := s.setReg (aCalLoopCtrl g) (putFld ctrl 0 1 1)
    let s := s.setGroup g { x with
      loopRun := true, loopRefused := false, peCal := (loopScript ctrl).isSome, loopFrom := s.now, loopInj := s.now }
    let s := s.emit (.selfTest g (fld ctrl 1 2) (fld ctrl 3 2) (fld ctrl 5 2))
    .next (match loopScript ctrl with | some k => s.calScript g k | none => s)

/-- CAL_LOOP_CTRL_g.RUN cleared: the loop stops and its exit script plays. -/
def execCalLoopRunClear (g : Fin 16) (s : State) : Host.Outcome State Fault Refusal :=
  let g := g.val
  let x := s.group g
  let ctrl := s.reg (aCalLoopCtrl g)
  if !x.loopRun then .next (s.setGroup g { x with loopRefused := false })
  else
    let s := s.setReg (aCalLoopCtrl g) (putFld ctrl 0 1 0)
    let s := s.setGroup g { x with loopRun := false, loopRefused := false, peCal := false }
    .next (match loopScript ctrl with | some k => s.calScript g (k + 1) | none => s)

/-- CAL_LOOP_CTRL_g.INJECT_ONCE: one bit is inverted on every channel of a running loop's group; locked checkers count it, others seek
their lock again (R381). -/
def execCalLoopInjectOnce (g : Fin 16) (s : State) : Host.Outcome State Fault Refusal :=
  let x := s.group g.val
  let locked := decide (x.loopFrom + checkerLockBits * loopBit (s.reg (aCalLoopCtrl g.val)) ≤ s.now)
  if !x.loopRun then .next s
  else .next (s.loopErrors g.val (if locked then 1 else 0) (if locked then x.loopFrom else s.now))

/-! ### CALIBRATE (R372) -/

/-- CALIBRATE at its engine. -/
def engineCalibrate (groups phases : Nat) (_store defer_ : Bool) (t : Task) (s : State) : State :=
  let gs := bitsOf 16 groups
  if defer_ then
    (gs.foldl (fun s g => s.modGroup g (fun x =>
      { x with due := true, deferred := true, dueSince := if x.due then x.dueSince else s.now })) s).complete t 0 0
  else
    let ps := bitsOf 3 phases
    let s := gs.foldl (fun s g => s.modGroup g (fun x => { x with
      queue := x.queue ++ ps.map (fun p => { phase := p, inPlace := false, started := false, task := some t.id }) })) s
    s.calTaskDone t.id 0

/-- CALIBRATE. -/
def execCalibrate (h : Hdr) (groups phases : Nat) (store defer_ : Bool) (s : State) : Host.Outcome State Fault Refusal :=
  .next (serve h (.calibrate groups phases store defer_) (engineCalibrate groups phases store defer_) s)

end Sys2Proof.Machine
end

