-- ==== Sys2Proof/Machine/Adc.lean ====
section
/-! DEFINITION. The measurement converters (chapter 17): conversions, results, the sharing of the converters, pair checks,
housekeeping rounds, retests, MEASURE, and the frozen reads of the result registers. -/

namespace Sys2Proof.Machine

/-! ### Converters and requests -/

/-- The request with its accumulation begun anew. -/
def restart (c : Conv) : Conv := { c with accum := 0, got := 0, ovr := false, settled := false }

/-- The request a converter serves is the numbered one. -/
def serves (c : Conv) (id : Nat) : Bool := match c.cur with | some r => r.id == id | none => false

/-- The urgent request of a converter that comes first: the one in service, or the head of those that wait (R391). -/
def firstUrgent (c : Conv) : Option AdcReq :=
  match c.cur with
  | some r => if r.urgent then some r else c.queue.find? (·.urgent)
  | none => c.queue.find? (·.urgent)

/-- An urgent request may be taken: one on both converters only when it comes first on the other too (R393). -/
def State.canTake (s : State) (b : Bool) (r : AdcReq) : Bool :=
  !r.pair || (match firstUrgent (s.conv !b) with | some u => u.id == r.id | none => false)

/-- A converter takes a request from its queue. -/
def takeReq (c : Conv) (r : AdcReq) : Conv :=
  { restart c with cur := some r, queue := c.queue.filter (fun q => q.id != r.id), turn := 0 }

/-- Before a conversion a converter chooses its request (R391, R392). A displaced request loses its current result's conversions,
on both converters where it runs on both. -/
def State.adcPick (s : State) (b : Bool) : State :=
  let c := s.conv b
  let stays := match c.cur with | some r => r.urgent | none => false
  if stays then s
  else
    match c.queue.find? (fun r => r.urgent && s.canTake b r) with
    | some u =>
      match c.cur with
      | none => s.setConv b (takeReq c u)
      | some r =>
        let s := s.setConv b { takeReq c u with queue := r :: c.queue.filter (fun q => q.id != u.id) }
        if r.pair && serves (s.conv !b) r.id then
          let s := s.setConv (!b) (restart (s.conv !b))
          { s with adc := { s.adc with pairWord := none } }
        else s
    | none =>
      match c.cur, c.queue.find? (fun r => r.cal.isSome), c.queue.find? (fun r => !r.urgent) with
      | none, some r, _ => s.setConv b (takeReq c r)
      | none, none, some r => s.setConv b (takeReq c r)
      | _, _, _ => s

/-- The converter may start a conversion of a request on both: MADC-A first at each instant, MADC-B after it (R394). -/
def State.inStep (s : State) (b : Bool) (r : AdcReq) : Bool :=
  !r.pair || (serves (s.conv !b) r.id
    && (if b then decide (s.adc.b.got < s.adc.a.got) else s.adc.a.got == s.adc.b.got && s.adc.pairWord.isNone))

/-! ### Conversions and results (R384 to R389) -/

/-- A code clamped to the end codes (R387). -/
def clampCode (v : Int) : Int := min (max v (-524288)) 524287

/-- The settle span that a conversion opens: the longest of its changes (R388). -/
def settleSpan (c : Conv) (r : AdcReq) : Nat :=
  max (if r.mux = c.prevMux then 0 else 2)
    (max (if r.gain = c.prevGain then 0 else 4) (if r.filter = c.prevFilter then 0 else 2 ^ r.filter))

/-- One conversion of a request. The first `skip` are discarded from the sum (R393). -/
def convert (c : Conv) (r : AdcReq) (code : Int) (ovr : Bool) : Conv :=
  let span := max c.settle (settleSpan c r)
  { c with
    accum := if c.got < r.skip then 0 else c.accum + clampCode code
    ovr := if c.got < r.skip then false else c.ovr || ovr
    settled := if c.got < r.skip then false else c.settled || decide (0 < span)
    got := c.got + 1, settle := span - 1, prevMux := r.mux, prevGain := r.gain, prevFilter := r.filter }

/-- The request's result is complete. -/
def resultDone (c : Conv) (r : AdcReq) : Bool := decide (r.skip + 2 ^ r.filter ≤ c.got)

/-- The code of a completed result (R386). -/
def resultCode (c : Conv) (r : AdcReq) : Int := roundDrop c.accum r.filter

/-- The result word of Table 17.3, the converter's sequence counter already risen. -/
def resultWord (b : Bool) (c : Conv) (r : AdcReq) : BitVec 64 :=
  let tag := c.seq % 256
  BitVec.ofNat 64 (ofSigned 20 (resultCode c r) + 2 ^ 20 * b2n c.ovr + 2 ^ 21 * b2n c.settled + 2 ^ 22 * b2n r.check
    + 2 ^ 23 * b2n r.urgent + 2 ^ 24 * tag + 2 ^ 32 * r.mux + 2 ^ 38 * r.gain + 2 ^ 40 * b2n b + 2 ^ 41 * r.filter + 2 ^ 56 * tag)

/-- The MEASURE record of a result (R389). -/
def resultRecord (w : BitVec 64) (seq : Nat) : BitVec 64 :=
  let w := w.toNat
  BitVec.ofNat 64 (4 * 2 ^ 61 + 2 ^ 60 * fld w 40 1 + 2 ^ 54 * fld w 32 6 + 2 ^ 53 * fld w 23 1 + 2 ^ 52 * fld w 22 1
    + 2 ^ 51 * fld w 21 1 + 2 ^ 50 * fld w 20 1 + 2 ^ 48 * fld w 38 2 + 2 ^ 28 * fld w 0 20 + seq)

/-- The converter's counter rises for a completed result (R386). -/
def countResult (c : Conv) : Conv := { c with seq := (c.seq + 1) % 2 ^ 28 }

/-! ### Supplies (Table 22.5) and the check reading (R396) -/

/-- The recommended range of a supply monitor's channel, in µV; none for other channels. -/
def supplyRange : Nat → Option (Nat × Nat)
  | 49 => some (735000, 765000)
  | 50 => some (784000, 816000)
  | 51 => some (882000, 918000)
  | 52 => some (1164000, 1236000)
  | 53 => some (1067000, 1133000)
  | 54 => some (833000, 867000)
  | 55 => some (1176000, 1224000)
  | 56 => some (1746000, 1854000)
  | 58 => some (2450000, 2550000)
  | _ => none

/-- A gain-1 code in 1/32 µV: one step is 3.90625 µV (R384). -/
def code32 (code : Int) : Int := code * 125

/-- A housekeeping reading of a supply lies outside its range; channel 58 reads half (Table 17.1). -/
def supplyBad (mux : Nat) (code : Int) : Bool :=
  match supplyRange mux with
  | none => false
  | some (lo, hi) =>
    let v := if mux = 58 then 2 * code32 code else code32 code
    !(decide ((32 * lo : Int) ≤ v) && decide (v ≤ (32 * hi : Int)))

/-- Detail of source 93 while the latest reading of some supply lies outside its range (R419). -/
def State.supplyLost (s : State) : Option Nat := (s.adc.hk.find? (fun e => supplyBad e.1 (sfld e.2.toNat 0 20))).map (·.1)

/-- A reading of channel 0 at gain 1 lies within ADC_VREF_NOM ± ADC_VREF_WINDOW. -/
def State.vrefIn (s : State) (code : Int) : Bool :=
  decide ((code32 code - 32 * (fld (s.reg aAdcVref) 0 21 : Int)).natAbs ≤ 32 * fld (s.reg aAdcWindow) 0 16)

/-! ### Delivery (R394) -/

/-- A result reaches its requester: the result register, the housekeeping table with the supply check, the group's calibration phase, or
the MEASURE task's records, buffer and counts. -/
def State.adcDeliver (s : State) (b : Bool) (r : AdcReq) (w : BitVec 64) : State :=
  let c := s.conv b
  let s := s.setConv b { c with last := w }
  if r.housekeeping then
    let s := s.recur 93 s.supplyLost
    let s := { s with adc := { s.adc with hk := tset 0 s.adc.hk r.mux w } }
    if supplyBad r.mux (sfld w.toNat 0 20) then s.fault 93 r.mux else s
  else
    match r.cal, r.task with
    | some g, _ => s.modGroup g (fun x => { x with sense := some (sfld w.toNat 0 20) })
    | none, none => s
    | none, some id =>
      let (n, o, _) := tget (0, 0, 0) s.adc.done id
      let s := if r.records then s.devPush (resultRecord w c.seq) s.measureStream else s
      let s := if r.buffer then s.hostWrite (r.addr + 8 * n) 8 w.toNat else s
      { s with adc := { s.adc with done := tset (0, 0, 0) s.adc.done id (n + 1, o + fld w.toNat 20 1, w) } }

/-- A MEASURE task completes: last result, results delivered, results with OVR (Table 11.8). -/
def State.endMeasure (s : State) (id status : Nat) : State :=
  let (n, o, w) := tget (0, 0, 0) s.adc.done id
  ({ s with adc := { s.adc with done := tset (0, 0, 0) s.adc.done id (0, 0, 0) } }).completeId id status
    (w.toNat + 2 ^ 64 * (n % 2 ^ 32) + 2 ^ 96 * (o % 2 ^ 32))

/-- The converter goes on after a result: the request's last result ends it there; after 16 results another takes its turn, and a
calibration reading takes it at once (R391; notes/assumptions/87.md). -/
def afterResult (c : Conv) : Conv :=
  let c := restart c
  match c.cur with
  | none => c
  | some r =>
    if r.left ≤ 1 then { c with cur := none }
    else
      let r := { r with left := r.left - 1 }
      if !r.urgent && decide (16 ≤ c.turn + 1) then { c with cur := none, queue := c.queue ++ [r] }
      else if !r.urgent && c.queue.any (fun q => q.cal.isSome) then { c with cur := none, queue := r :: c.queue }
      else { c with cur := some r, turn := c.turn + 1 }

/-! ### Converters out of service (R396, R397) -/

/-- A request as the remaining converter serves it, alone. -/
def alone (r : AdcReq) : AdcReq := if r.retest.isSome then r else { r with pair := false, check := false }

/-- A MEASURE with PAIRCHK. -/
def isPairchk (r : AdcReq) : Bool := r.check && r.task.isSome

/-- A converter is taken out of service: source 83 asserts, what it had to serve goes to the other, and MEASUREs with PAIRCHK
complete FAULTED. -/
def State.takeOut (s : State) (b : Bool) : State :=
  let c := s.conv b
  let mine := c.cur.toList ++ c.queue
  let o := s.conv !b
  let failed := (mine.filter isPairchk).filterMap (·.task)
  let moved := mine.filter (fun r => !r.pair)
  let s := s.setConv b { restart c with isOut := true, cur := none, queue := mine.filter (fun r => r.retest.isSome) }
  let cur := match o.cur with | some r => if isPairchk r then none else some (alone r) | none => none
  let o := if cur = o.cur then o else restart o
  let s := s.setConv (!b) { o with cur := cur, queue := ((o.queue.filter (fun r => !isPairchk r)).map alone) ++ moved }
  let s := { s with adc := { s.adc with pairWord := none } }
  failed.foldl (fun s id => s.endMeasure id 6) (s.fault 83 (b2n b))

/-- A retest's last check is in: where all 16 held, the tested converter returns to service (R397). -/
def State.endRetest (s : State) (r : AdcReq) : State :=
  match r.retest with
  | none => s
  | some b =>
    let bad := decide (r.id ∈ s.adc.retestBad)
    let s := { s with adc := { s.adc with retestBad := s.adc.retestBad.filter (· != r.id) } }
    if bad then s else s.setConv b { s.conv b with isOut := false }

/-! ### The two kinds of result -/

/-- A result of a request that one converter serves. -/
def State.singleResult (s : State) (b : Bool) (r : AdcReq) : State :=
  let c := countResult (s.conv b)
  let s := (s.setConv b c).adcDeliver b r (resultWord b c r)
  let s := s.setConv b (afterResult (s.conv b))
  match r.task with
  | some id => if r.left ≤ 1 then s.endMeasure id 0 else s
  | none => s

/-- The two codes differ by more than ADC_PAIR_THRESH, scaled to the gain (R395). -/
def State.disagree (s : State) (gain : Nat) (a b : Int) : Bool := decide (fld (s.reg aAdcThresh) 0 16 * 2 ^ gain < (a - b).natAbs)

/-- A word with DISAGREE. -/
def withDisagree (w : BitVec 64) (d : Bool) : BitVec 64 := if d then w ||| (1 <<< 45) else w

/-- A disagreement counts and asserts (R395). -/
def State.countDisagree (s : State) (mux : Nat) : State := (s.rcAdd aAdcPairFails 1).fault 82 mux

/-- A disagreement on channel 0 of a housekeeping round is attributed where exactly one reading lies outside its window (R396). -/
def State.attribute (s : State) (a b : Int) : State :=
  if fld (s.reg aAdcVref) 0 21 = 0 || !(s.reg aAdcCtrl).testBit 0 then s
  else if s.vrefIn a && !s.vrefIn b then s.takeOut true
  else if !s.vrefIn a && s.vrefIn b then s.takeOut false
  else s

/-- A check of a retest: a disagreement, or a reading of the tested converter outside its window, fails it (R397). -/
def State.noteRetest (s : State) (r : AdcReq) (dis : Bool) (a b : Int) : State :=
  match r.retest with
  | none => s
  | some t => if dis || !s.vrefIn (if t then b else a) then { s with adc := { s.adc with retestBad := r.id :: s.adc.retestBad } } else s

/-- Both results of a pair: MADC-A's is delivered first (R394, R395). -/
def State.pairResult (s : State) (r : AdcReq) (wa wb : BitVec 64) : State :=
  let a := sfld wa.toNat 0 20
  let b := sfld wb.toNat 0 20
  let dis := r.check && s.disagree r.gain a b
  let s := (s.adcDeliver false r (withDisagree wa dis)).adcDeliver true r (withDisagree wb dis)
  let n := max s.adc.a.turn s.adc.b.turn
  let s := (s.setConv false (afterResult { s.adc.a with turn := n }))
  let s := (s.setConv true (afterResult { s.adc.b with turn := n }))
  let s := { s with adc := { s.adc with pairWord := none } }
  let s := if dis then s.countDisagree r.mux else s
  let s := s.noteRetest r dis a b
  let s := if dis && r.housekeeping then s.attribute a b else s
  if 1 < r.left then s
  else
    match r.task with
    | some id => s.endMeasure id 0
    | none => s.endRetest r

/-- The grid on which conversions start, each lasting one interval: 125 CLK_MGMT cycles, 1 µs (R384). -/
def adcGrid : Nat := tuPerUs

/-- ADC_CONVERSION: a converter ends a conversion whose input has this code before saturation, and whose over-range comparator
reads `ovr`, at an instant of the grid (R384 to R388). A converter with nothing to convert is idle. -/
def execAdcConversion (b : Bool) (code : Int) (ovr : Bool) (s : State) : Host.Outcome State Fault Refusal :=
  let s := s.adcPick b
  match (s.conv b).cur with
  | none => .next s
  | some r =>
    if !s.inStep b r then .next s
    else
      let s := s.periodic (90 + b2n b) adcGrid
      let c := convert (s.conv b) r code ovr
      let s := s.setConv b c
      if !resultDone c r then .next s
      else if !r.pair then .next (s.singleResult b r)
      else if !b then
        let c := countResult c
        let s := s.setConv false c
        .next { s with adc := { s.adc with pairWord := some (resultWord false c r) } }
      else
        let c := countResult c
        .next ((s.setConv true c).pairResult r (s.adc.pairWord.getD 0) (resultWord true c r))

/-! ### Requests -/

/-- A request for both arrives: the remaining converter serves it alone where one is out; a retest runs on both. -/
def State.requestBoth (s : State) (r : AdcReq) : State :=
  if (s.adc.a.isOut || s.adc.b.isOut) && r.retest.isNone then s.requestOne false (alone r)
  else
    let r := { r with id := s.adc.nextId }
    { s with adc := { s.adc with
      a := { s.adc.a with queue := s.adc.a.queue ++ [r] }, b := { s.adc.b with queue := s.adc.b.queue ++ [r] }
      nextId := s.adc.nextId + 1 } }

/-- HOUSEKEEPING_ROUND: every 40 ticks, one round on each converter (R393). -/
def execHousekeepingRound (s : State) : Host.Outcome State Fault Refusal :=
  let s := s.periodic 2 (40 * tuPerTick)
  let s := (List.range 16).foldl (fun s g => s.requestOne false (hkReq (33 + g) false)) s
  let s := ((List.range 8).map (49 + ·) ++ [58]).foldl (fun (s : State) m => s.requestOne true (hkReq m false)) s
  .next (s.requestBoth (hkReq 0 true))

/-- A retest of a converter: 16 pair checks on channel 0 (R397). -/
def State.retest (s : State) (b : Bool) : State :=
  s.requestBoth { hkReq 0 true with left := 16, urgent := false, retest := some b, housekeeping := false }

/-- ADC_CMD.RETEST_A. -/
def execAdcCmdRetestA (s : State) : Host.Outcome State Fault Refusal := .next (s.retest false)

/-- ADC_CMD.RETEST_B. -/
def execAdcCmdRetestB (s : State) : Host.Outcome State Fault Refusal := .next (s.retest true)

/-- MEASURE at its engine (R391, R394, R397, R398). -/
def engineMeasure (conv mux gain filter count : Nat) (urgent pairchk records buffer : Bool) (addr : Nat) (t : Task) (s : State) : State :=
  let r : AdcReq := { id := 0, task := some t.id, mux := mux, gain := gain, filter := filter, left := count, urgent := urgent,
                      pair := conv == 2, check := pairchk, retest := none, housekeeping := false, cal := none, skip := 0, records := records,
                      buffer := buffer, addr := addr }
  if pairchk && (s.adc.a.isOut || s.adc.b.isOut) then s.complete t 6 0
  else if conv = 2 then s.requestBoth r
  else s.requestOne (conv == 1) r

/-- MEASURE. -/
def execMeasure (h : Hdr) (conv mux gain filter count : Nat) (urgent pairchk records buffer : Bool) (addr : Nat) (s : State) :
    Host.Outcome State Fault Refusal :=
  .next (serve h (.measure conv mux gain filter count urgent pairchk records buffer addr)
    (engineMeasure conv mux gain filter count urgent pairchk records buffer addr) s)

/-! ### The result register pairs (R390): 0 ADC_LAST_A, 1 ADC_LAST_B, 2 ADC_HK -/

/-- The latest result of a pair of registers. -/
def State.adcLatest (s : State) (p : Nat) : BitVec 64 :=
  if p = 0 then s.adc.a.last else if p = 1 then s.adc.b.last else tget 0 s.adc.hk (fld (s.reg aAdcHkSel) 0 6)

/-- Address of a pair's low half. -/
def aAdcPair (p : Nat) : Nat := if p = 0 then 0xA020 else if p = 1 then 0xA028 else 0xA038

/-- A read of the low half: the latest result's, and the high half freezes at it. -/
def execAdcResultFreeze (pair : Fin 3) (s : State) : Host.Outcome State Fault Refusal :=
  let w := s.adcLatest pair.val
  .next (({ s with adc := { s.adc with frozen := tset none s.adc.frozen pair.val (some w) } }).emit
    (.readValue (aAdcPair pair.val) (fld w.toNat 0 32)))

/-- A read of the high half: the frozen one, and the freeze ends. -/
def execAdcResultRelease (pair : Fin 3) (s : State) : Host.Outcome State Fault Refusal :=
  let w := (tget none s.adc.frozen pair.val).getD (s.adcLatest pair.val)
  .next (({ s with adc := { s.adc with frozen := tset none s.adc.frozen pair.val none } }).emit
    (.readValue (aAdcPair pair.val + 4) (fld w.toNat 32 32)))

end Sys2Proof.Machine
end

