-- ==== Sys2Proof/Machine/Pattern.lean ====
section
/-! DEFINITION. The PATTERN class: PATTERN_LOAD, PATTERN_BROADCAST and MEM_COPY, and the reception of a broadcast image (R69 to R74,
R499). The checks are made at dispatch, the lines are written at PATTERN_TRANSFER_COMPLETE. -/

namespace Sys2Proof.Machine

/-- Two runs of lines overlap. -/
def overlaps (a n b m : Nat) : Bool := decide (a < b + m) && decide (b < a + n)

/-- Lines `a` to `a + n - 1` overlap a segment that a site not in IDLE can reach in a configuration. -/
def State.reachedLines (s : State) (cv : Tab Nat) (a n : Nat) : Bool :=
  (List.range 32).any (fun k => (s.site k).st != .idle && (reachable cv k).any (fun i =>
    overlaps a n (segLine (cvSeg cv i)) (segLines cv k (cvSeg cv i))))

/-- R69 protects some of the lines: by the committed Segment Table, or by that of a pending commit. -/
def State.protectedLines (s : State) (a n : Nat) : Bool :=
  s.reachedLines s.cv a n
    || (match s.cfg.pending with
      | some p => s.reachedLines (overlay s.cv (p.items.filter (fun kv => kv.1 / 65536 != 12))) a n
      | none => false)

/-- Fields of an image header (Table 3.4). -/
def imgId (rd : ImageReader) : Nat := rd 8 8
def imgRegions (rd : ImageReader) : Nat := rd 16 4
def imgLines (rd : ImageReader) : Nat := rd 24 8 % 2 ^ 40

/-- The status that refuses an image before anything is written, in the order of R74; 0 where it is accepted. -/
def State.imageStatus (s : State) (rd : ImageReader) (base fn : Nat) : Nat :=
  let n := imgRegions rd
  let lines := imgLines rd
  let table := 64 * ceilDiv n 2
  if !s.trained then 5
  else if rd 0 4 ≠ 0x49505356 ∨ rd 4 2 ≠ 1 ∨ n = 0 ∨ 65536 < n then 3
  else if (crc32c (bytesOf 60 (rd 0 60))).toNat ≠ rd 60 4 then 10
  else if s.mem.capacity < base + lines then 5
  else if s.protectedLines base lines || !s.holdsLines fn base lines then 4
  else if (crc32c (bytesOf table (rd 64 table))).toNat ≠ rd 36 4 then 10
  else 0

/-- The result of a load: IMAGE_ID, first failing region, failing regions. -/
def loadResult (id first n : Nat) : Nat := id + 2 ^ 64 * first + 2 ^ 96 * n

/-- The regions of an image whose frank does not match, ascending; one that runs beyond the image's lines fails. -/
def badRegions (rd : ImageReader) : List Nat :=
  (List.range (imgRegions rd)).filter (fun r =>
    let e := 64 + 32 * r
    let off := rd e 8 % 2 ^ 40
    let lines := rd (e + 12) 4
    decide (imgLines rd < off + lines)
      || (crc32c (bytesOf (64 * lines) (rd (64 * off) (64 * lines)))).toNat != rd (e + 20) 4)

/-- An image goes to its lines: what its load reports. -/
def State.storeImage (s : State) (rd : ImageReader) (base : Nat) : State × Nat × Nat :=
  let s := (List.range (imgLines rd)).foldl (fun s k => s.writeLine (base + k) (BitVec.ofNat 512 (rd (64 * k) 64))) s
  let bad := badRegions rd
  (s, if bad.isEmpty then 0 else 10, loadResult (imgId rd) (bad.headD 0xFFFFFFFF) bad.length)

/-- PATTERN_LOAD at its engine: a load that is refused has its outcome at once. -/
def enginePatternLoad (base addr : Nat) (t : Task) (s : State) : State :=
  let rd := hostImage s.host addr
  let st := s.imageStatus rd base t.fn
  if st = 0 then s
  else s.setOutcome t.id st (loadResult (if s.trained then imgId rd else 0) 0xFFFFFFFF 0)

/-- PATTERN_LOAD. -/
def execPatternLoad (h : Hdr) (base addr : Nat) (s : State) : Host.Outcome State Fault Refusal :=
  .next (serve h (.patternLoad base addr) (enginePatternLoad base addr) s)

/-- PATTERN_BROADCAST at its engine: the image goes down the tree; every receiving device checks and loads it (R74). -/
def enginePatternBroadcast (base addr : Nat) (_ : Task) (s : State) : State :=
  let rd := hostImage s.host addr
  s.sendData base true true (bytesOf (64 * imgLines rd) (rd 0 (64 * imgLines rd)))

/-- PATTERN_BROADCAST. -/
def execPatternBroadcast (h : Hdr) (base addr : Nat) (s : State) : Host.Outcome State Fault Refusal :=
  .next (serve h (.patternBroadcast base addr) (enginePatternBroadcast base addr) s)

/-- MEM_COPY at its engine (R499). -/
def engineMemCopy (src dst lines : Nat) (t : Task) (s : State) : State :=
  if !s.trained || decide (s.mem.capacity < src + lines) || decide (s.mem.capacity < dst + lines) then s.setOutcome t.id 5 0
  else if s.protectedLines dst lines then s.setOutcome t.id 4 0
  else s

/-- MEM_COPY. -/
def execMemCopy (h : Hdr) (src dst lines : Nat) (s : State) : Host.Outcome State Fault Refusal :=
  .next (serve h (.memCopy src dst lines) (engineMemCopy src dst lines) s)

/-- The errors that a line shows. -/
def errorsOf (found : List (Nat × Errors)) (l : Nat) : Errors := match found.find? (fun f => f.1 == l) with | some f => f.2 | none => []

/-- Lines copied: the whole source is read through the decoder, then the destination is written (R352, R499). -/
def State.copyLines (s : State) (src dst lines : Nat) (found : List (Nat × Errors)) : State :=
  let (s, ds) := (List.range lines).foldl (fun (acc : State × List (BitVec 512 × Bool)) i =>
    let (s, d, bad, _) := acc.1.memRead (src + i) (errorsOf found (src + i))
    (s, acc.2 ++ [(d, bad)])) (s, [])
  ((List.range lines).zip ds).foldl (fun s it =>
    if it.2.2 then s.writePoisoned (dst + it.1) else s.writeLine (dst + it.1) it.2.1) s

/-- The result of a broadcast: IMAGE_ID, devices OK, devices not OK, lowest id not OK. -/
def broadcastResult (id : Nat) (outcomes : List (Nat × Nat)) : Nat :=
  let bad := (outcomes.filter (fun o => o.2 != 0)).map (·.1)
  id + 2 ^ 64 * (outcomes.length - bad.length) + 2 ^ 80 * bad.length + 2 ^ 96 * (bad.min?.getD 0xFFFF)

/-- PATTERN_TRANSFER_COMPLETE: a task of the PATTERN class ends (R74, R499). Which status a broadcast ends with that some device did
not load, the spec does not state: it is a free value (notes/assumptions/25.md). -/
def execPatternTransferComplete (task : Nat) (outcomes : List (Nat × Nat)) (found : List (Nat × Errors)) (s : State) :
    Host.Outcome State Fault Refusal :=
  match s.task task with
  | none => .next s
  | some t =>
    if t.st != .inService || t.courier then .next s
    else
      match t.outcome, t.op with
      | some (st, r), .patternLoad .. => .next (s.complete t st r)
      | some (st, r), .memCopy .. => .next (s.complete t st r)
      | none, .patternLoad base addr =>
        let (s, st, r) := s.storeImage (hostImage s.host addr) base
        .next (s.complete t st r)
      | none, .memCopy src dst lines => .next ((s.copyLines src dst lines found).complete t 0 lines)
      | none, .patternBroadcast _ addr =>
        let r := broadcastResult (imgId (hostImage s.host addr)) outcomes
        if outcomes.all (fun o => o.2 == 0) then .next (s.complete t 0 r)
        else .next (s.drawn.complete t (s.free 25 % 15) r)
      | _, _ => .next s

/-- A broadcast image that is all there is checked and loaded, once the PATTERN server has taken its task; the device reports the
outcome (R74, R267, Table 11.12). -/
def State.endReception (s : State) : State :=
  match s.tree.rxPattern with
  | none => s
  | some g =>
    let served := match s.task g.slot with | some t => t.st == .inService | none => false
    if !g.whole || !served then s
    else
      let s := { s with tree := { s.tree with rxPattern := none } }
      let rd := listImage g.bytes
      let st := s.imageStatus rd g.base 0
      let s := if st ≠ 0 then s.event 9 s.ownId st
        else
          let (s, st, _) := s.storeImage rd g.base
          s.event 9 s.ownId st
      s.completeId g.slot 0 0

/-- The first frame of a broadcast image takes a task slot; an image that is cut off by it frees its own. -/
def State.beginReception (s : State) (base : Nat) : State :=
  let s := match s.tree.rxPattern with | some g => s.completeId g.slot 0 0 | none => s
  let s := { s with tree := { s.tree with rxPattern := some { base := base, bytes := [], whole := false, slot := s.so.nextId } } }
  s.takeCourier (.patternBroadcast base 0) id

/-- PATTERN_DATA: a frame of a broadcast image is received and forwarded; with its last frame the image is checked and loaded. Without
a free slot the first frame waits (R74, R267). -/
def execPatternData (_p : Fin 4) (base : Nat) (header : Bool) (bytes : List Byte) (last : Bool) (s : State) :
    Host.Outcome State Fault Refusal :=
  if header && s.freeSlots == 0 then .next s
  else
    let s := s.sendData base header last bytes
    let s := if header then s.beginReception base else s
    let got := s.tree.rxPattern.map (fun g => { g with bytes := g.bytes ++ bytes, whole := last })
    let s := { s with tree := { s.tree with rxPattern := got } }
    .next s.endReception

end Sys2Proof.Machine
end

