-- ==== Sys2Proof/Machine/Fault.lean ====
section
/-! DEFINITION. The fault collector's commands (chapter 19): assertions from outside the modelled units, quiet periods, sticky bits,
injection, release and the log's snapshot. -/

namespace Sys2Proof.Machine

/-- FC_QUIET_k of a source's class, in ticks; 0 never (R416). -/
def State.quietTicks (s : State) (n : Nat) : Nat := fld (s.reg (aFcQuiet (faultClass n))) 0 16

/-- The first management tick at which a source's quiet period has run (R422). -/
def State.quietEnd (s : State) (n : Nat) : Nat :=
  ceilDiv ((s.src n).lastAt + s.quietTicks n * tuPerTick) tuPerTick * tuPerTick

/-- Detail of a level source whose condition the device itself reads, while it holds: a DIMM sensor without an answer, the die
temperature, a supply out of its range; the others recur by FAULT_ASSERTION and TB_WARM (R419). -/
def State.levelDetail (s : State) (n : Nat) : Option Nat :=
  match n with
  | 48 => s.sidebandLost
  | 91 => s.thermHeld
  | 93 => s.supplyLost
  | _ => none

def State.levelHolds (s : State) (n : Nat) : Bool := (s.levelDetail n).isSome

/-- The level sources have recurred at the last management tick. -/
def State.recurLevels (s : State) : State := [48, 91, 93].foldl (fun (s : State) n => s.recur n (s.levelDetail n)) s

/-- A source with what a level source's condition has done so far counted: it is next due at the tick to come. -/
def State.srcNow (s : State) (n : Nat) : Src :=
  let x := s.src n
  if s.levelHolds n then { x with lastAt := max x.lastAt (s.now / tuPerTick * tuPerTick) } else x

/-- A PE control port's ALERT_N as last sampled (R419). -/
def State.noteAlert (s : State) (n : Nat) (low : Bool) : State :=
  if n < 16 then s.modGroup n (fun x => { x with alertLow := low }) else s

/-- An assertion of source 77 is a lock loss of the root PLL: CLK_UNLOCKS counts it and LOCK falls (Tables 19.1, 21.4 and 21.5; DEDUCED,
notes/assumptions/42.md). -/
def State.noteUnlock (s : State) (n : Nat) : State :=
  if n = 77 then { s.rcAdd aClkUnlocks 1 with boot := { s.boot with refLock := false } } else s

/-- A source's reaction ends. -/
def State.endReaction (s : State) (n : Nat) (counts : Bool) : State :=
  let x := s.srcNow n
  (s.setSrc n { x with
    active := false, running := 0, recoveries := if counts then satAdd 16 x.recoveries 1 else x.recoveries }).syncSleep.noteStatus

/-- FAULT_ASSERTION: one assertion of a source, with its detail word (R415, R418, R419). -/
def execFaultAssertion (n : Fin 96) (detail : W32) (s : State) : Host.Outcome State Fault Refusal :=
  .next (((s.noteUnlock n.val).noteAlert n.val true).fault n.val detail.toNat)

/-- QUIET_PERIOD_EXPIRY: a reaction's quiet period has run at a management tick; an assertion in that tick wins, and so does a level
source's condition that still holds (R419, R422, R427). -/
def execQuietPeriodExpiry (n : Fin 96) (asserted : Option W32) (s : State) : Host.Outcome State Fault Refusal :=
  if !(s.src n.val).active || s.quietTicks n.val == 0 then .next s
  else
    let s := s.advance (s.quietEnd n.val)
    match asserted with
    | some d => .next ((s.noteUnlock n.val).fault n.val d.toNat)
    | none =>
      if s.levelHolds n.val then .next (s.fault n.val (s.src n.val).detail.toNat)
      else .next ((s.noteAlert n.val false).endReaction n.val true)

/-- The sources of a word of the three-word arrays that a mask names. -/
def wordSources (w : Fin 3) (mask : W32) : List Nat := (bitsOf 32 mask.toNat).map (32 * w.val + ·)

/-- FC_STICKY_w written: sticky bits clear, and INJ_ONLY with them; a coincident assertion wins (R425 to R427). -/
def execFcStickyClear (w : Fin 3) (mask coincident : W32) (s : State) : Host.Outcome State Fault Refusal :=
  let s := (wordSources w (mask &&& ~~~coincident)).foldl (fun (s : State) n =>
    s.setSrc n { s.srcNow n with sticky := false, injOnly := false }) s
  .next ((wordSources w (mask &&& coincident)).foldl (fun (s : State) n => s.fault n 0) s.noteStatus)

/-- FC_INJECT: one injected assertion; with a real one in the same cycle, one real assertion (R426, R427). -/
def execFcInject (n : Fin 96) (coincident : Bool) (s : State) : Host.Outcome State Fault Refusal :=
  .next (s.faultInj n.val 0 (!coincident))

/-- FC_RELEASE: the reaction ends at once, uncounted, but for class FATAL; a coincident assertion wins (R422, R427). -/
def execFcRelease (n : Fin 96) (coincident : Bool) (s : State) : Host.Outcome State Fault Refusal :=
  if coincident then .next (s.fault n.val 0)
  else if faultClass n.val = 4 || !(s.src n.val).active then .next s
  else .next (s.endReaction n.val false)

/-- FC_SRC_n.CLR_REC. -/
def execFcSrcClrRec (n : Fin 96) (s : State) : Host.Outcome State Fault Refusal :=
  .next (s.setSrc n.val { s.src n.val with recoveries := 0 })

/-- FC_LOG_SEL: selecting an entry takes a snapshot of it. -/
def execFcLogSel (n : Fin 64) (s : State) : Host.Outcome State Fault Refusal :=
  let s := s.setReg 0x8080 n.val
  .next { s with fc := { s.fc with snapshot := s.fc.log[n.val]? } }

end Sys2Proof.Machine
end

