-- ==== Sys2Proof/Machine/Courier.lean ====
section
/-! DEFINITION. The Courier link layer (chapter 13): frames, acknowledgement, credits, lanes, the port commands and the eye scan. What a
link's coming and going means to the tree stands in Hierarchy; replay, received frames and RECOVERY stand in Replay. -/

namespace Sys2Proof.Machine

/-! ### Ports and states (Table 13.5) -/

def portCode : PortState → Nat
  | .down => 0
  | .detect => 1
  | .train => 2
  | .bitLock => 3
  | .symbolLock => 4
  | .capability => 5
  | .active => 6
  | .recovery => 7
  | .test => 8

/-- Event LINK_STATE (R294). -/
def State.linkEvent (s : State) (p : Nat) : State :=
  let x := s.port p
  s.event 10 p (portCode x.st + 16 * x.tx.toNat + 256 * x.rx.toNat)

/-- The port moves to a state with a timeout, if any; the move posts LINK_STATE. -/
def State.toState (s : State) (p : Nat) (st : PortState) (limit : Option Nat) : State :=
  (s.modPort p (fun x => { x with st := st, due := limit.map (s.now + ·) })).linkEvent p

/-- A state's timeout (Table 13.5). -/
def stateLimit : PortState → Option Nat
  | .train => some (4 * tuPerMs)
  | .bitLock => some tuPerMs
  | .symbolLock => some tuPerMs
  | .capability => some tuPerMs
  | .recovery => some (2 * tuPerMs)
  | _ => none

/-- Active lanes of a direction. -/
def laneCount (m : BitVec 4) : Nat := (List.range 4).countP (fun i => m.getLsbD i)

/-- Credits the virtual channels start with (R282). -/
def creditsInit : Tab Nat := [(0, 8), (1, 16), (2, 32), (3, 64)]

/-- Time of a frame of 32 data blocks on the active lanes; a block lasts 2.0625 ns (R275). -/
def frameTime (lanes : Nat) : Nat := 32 * blockTime / max 1 lanes

/-- The receivers' buffers (R282). -/
def bufferOf (vc : Nat) : Nat := tget 0 creditsInit vc

/-! ### Blocks on the lanes (R275 to R279) -/

/-- Blocks dealt over lanes in ascending order, from the place in the stripe at which the last ended, each scrambled on its lane. -/
def dealBlocks (lanes : List Nat) : List Block → Port → Port × List (Nat × Nat)
  | [], x => (x, [])
  | b :: bs, x =>
    let l := lanes.getD (x.txPos % lanes.length) 0
    let w := wireWord (tget 0 x.scr l) b
    let (x, ws) := dealBlocks lanes bs { x with txPos := (x.txPos + 1) % lanes.length, scr := tset 0 x.scr l w.1 }
    (x, (l, w.2) :: ws)

/-- Blocks leave on a port's active lanes. -/
def State.putBlocks (s : State) (p : Nat) (bs : List Block) : State :=
  if (s.port p).tx = 0 then s
  else
    let (x, ws) := dealBlocks (bitsOf 4 (s.port p).tx.toNat) bs (s.port p)
    (s.setPort p x).emit (.blocks p ws)

/-- A LINK_CTL block leaves in place of IDLE (Table 13.11). -/
def State.sendCtl (s : State) (p subtype arg16 arg8 : Nat) : State :=
  (s.putBlocks p [linkCtlBlock subtype arg16 arg8]).emit (.linkCtl p subtype arg16 arg8)

/-- A frame leaves, behind a PREEMPT block where it is inserted in another (R281). -/
def State.putFrame (s : State) (p : Nat) (inserted : Bool) (f : Nat) : State :=
  (s.putBlocks p ((if inserted then [preemptBlock] else []) ++ frameBlocks f)).emit (.frameSent p f)

/-- Data blocks of the frame on its way that went before now, 0 to 31 (R279). -/
def frameOffset (x : Port) (now : Nat) : Nat :=
  match x.begun with
  | [] => 0
  | b :: _ => min 31 ((now - b.2) * laneCount x.tx / blockTime)

/-- A marker's stripe: IDLE fills the stripe before it, every active lane of the new mask sends a MARKER, and a SKIP follows where
rates are matched (R276, R296). -/
def State.putMarkers (s : State) (p : Nat) (mask : BitVec 4) (skip : Bool) : State :=
  let x := s.port p
  let n := laneCount x.tx
  let s := s.putBlocks p (List.replicate ((n - x.txPos % max 1 n) % max 1 n) idleBlock)
  let s := s.modPort p (fun x => { x with tx := mask, txPos := 0 })
  let lanes := bitsOf 4 mask.toNat
  let s := s.putBlocks p (lanes.map (fun l => markerBlock l mask.toNat x.markers (frameOffset x s.now)))
  let s := if skip then s.putBlocks p (lanes.map (fun _ => skipBlock)) else s
  s.emit (.marker p mask.toNat skip)

/-- This device's capability frame on a port (Table 13.6). -/
def State.capFrame (s : State) (p : Nat) : Nat :=
  let x := s.port p
  let idw := match s.tree.id with | some d => d | none => if s.role = 1 then 0 else 2 ^ 15
  let last := if x.everActive then (x.expected - 1).toNat else 0xFFFF
  let v := 1 + 2 ^ 8 + 2 ^ 16 * s.role + 2 ^ 24 * b2n s.forwarded + 2 ^ 32 * idw + 2 ^ 48 * (x.rx.toNat + 16 * x.tx.toNat)
    + 2 ^ 56 * b2n s.ptu.tbWarm + 2 ^ 64 * last + 2 ^ 80 * s.cfg.epoch
  sealFrame (makeFrame 1 false 0 s.ownId 0 (bytesOf 14 v))

/-- The port sends its capability frame. -/
def State.sendCap (s : State) (p : Nat) : State := s.putFrame p false (s.capFrame p)

/-- SKIP blocks are sent: local-reference mode, in which a Branch runs until it is first enumerated, or rate matching after the loss of
the forwarded clock (R296, R298, R434). -/
def State.sendsSkip (s : State) (p : Nat) : Bool := !s.forwarded || (s.port p).filler || (s.role == 2 && s.tree.id.isNone)

/-- FCLK_OUT of a port: 100 MHz, the root clock divided by 160, wherever ENABLE is set, in both modes: its period in TU (R295). -/
def State.fclkOut (s : State) (p : Nat) : Option Nat := if (s.reg (aCou p 0)).testBit 0 then some (10 * tuPerNs) else none

/-- RECOVERY begins on a port in ACTIVE: stamps and replay buffer are kept; lanes are sought again, and then the capability frame is
sent again (R287, R293). -/
def State.beginRecovery (s : State) (p : Nat) : State :=
  if (s.port p).st != .active then s
  else
    let s := s.modPort p (fun x => { x with
      capSeen := false, capAcked := false, changes := [], failedAt := [], asked := [], numbers := [], relocked := false, begun := [] })
    let s := s.toState p .recovery (stateLimit .recovery)
    (s.rcAddHalf (aCou p 0x14) 0).fault (60 + p) 0

/-! ### Sending, acknowledgement and replay (R281 to R287) -/

/-- The virtual channel whose frame ends next: that of the frame on its way, else the one served next (R281, R282). -/
def currentVc (x : Port) : Option Nat :=
  match x.begun with
  | b :: _ => some b.1
  | [] => nextVc x

/-- A frame has ended: the one it was inserted in goes on, its blocks that much later; where nothing is on its way the next begins. -/
def frameEnded (x : Port) (now : Nat) : Port :=
  match x.begun with
  | a :: m :: _ => startNext { x with begun := [(m.1, m.2 + (now - a.2))] } now
  | _ => startNext { x with begun := [] } now

/-- A frame as it goes with INJECT_FRANK: its frank is wrong (R306). -/
def spoilFrank (spoil : Bool) (w : Nat) : Nat := if spoil then putFld w 2016 32 (fld w 2016 32 + 1) else w

/-- Frames go again, oldest first; the first of them with a wrong frank where INJECT_FRANK waits (R286, R306). -/
def State.sendAgain (s : State) (p : Nat) (fs : List (BitVec 2048)) : State :=
  let spoil := (s.port p).injectFrank && !fs.isEmpty
  (fs.mapIdx (fun i f => (i, f))).foldl (fun (s : State) e => s.putFrame p false (spoilFrank (spoil && e.1 == 0) e.2.toNat))
    (s.modPort p (fun x => { x with injectFrank := x.injectFrank && !spoil }))

/-- A frame as it goes on the wire: its stamp, the acknowledgement of the other direction, its frank (Table 13.3). -/
def wireFrame (x : Port) (f : Nat) : Nat :=
  let f := putFld (putFld f 48 16 x.stamp.toNat) 80 16 (x.expected - 1).toNat
  sealFrame (putFld (putFld (putFld f 11 1 1) 96 8 0) 104 8 0)

/-- FRAME_SEND: the frame on its way ends on the wire: it takes a credit and a stamp and stays in the replay buffer (R281, R282, R284,
R286, R306). -/
def execFrameSend (p : Fin 4) (s : State) : Host.Outcome State Fault Refusal :=
  let x := s.port p.val
  match currentVc x with
  | none => .next s
  | some vc =>
    match tget [] x.txq vc with
    | [] => .next s
    | f :: rest =>
      if x.st != .active || decide (64 ≤ x.replay.length) || tget 0 x.credits vc == 0 then .next s
      else
        let w := wireFrame x f.toNat
        let s := s.setPort p.val (frameEnded { x with
            txq := tset [] x.txq vc rest, credits := tset 0 x.credits vc (tget 0 x.credits vc - 1), stamp := x.stamp + 1
            replay := x.replay ++ [BitVec.ofNat 2048 w], injectFrank := false
            oldestSince := if x.replay.isEmpty then s.now else x.oldestSince, resends := if x.replay.isEmpty then 0 else x.resends } s.now)
        .next (s.putFrame p.val (decide (1 < x.begun.length)) (spoilFrank x.injectFrank w))

/-- Stamp `a` comes no later than stamp `b`, counting modulo 2^16. -/
def notAfter (a b : BitVec 16) : Bool := decide ((b - a).toNat < 2 ^ 15)

/-- A FILLER_ON frame. -/
def isFillerOn (f : Nat) : Bool := frType f == 1 && frCode f == 2

/-- A cumulative acknowledgement: the frames up to the stamp leave the replay buffer. Once a FILLER_ON is acknowledged SKIP blocks go
from the next marker on (R298). -/
def State.acked (s : State) (p : Nat) (stamp : BitVec 16) : State :=
  let x := s.port p
  if !notAfter stamp (x.stamp - 1) then s
  else
    let gone := fun (f : BitVec 2048) => notAfter (BitVec.ofNat 16 (frStamp f.toNat)) stamp
    let rest := x.replay.filter (fun f => !gone f)
    if rest.length = x.replay.length then s
    else s.setPort p (startNext { x with
      replay := rest, oldestSince := s.now, resends := 0
      fillerPending := x.fillerPending || x.replay.any (fun f => gone f && isFillerOn f.toNat) } s.now)

/-- The resend that an earlier NAK began has not yet passed the stamp. -/
def State.resendShort (s : State) (p : Nat) (stamp : BitVec 16) : Bool :=
  let x := s.port p
  match x.nakAt with
  | none => false
  | some (t, first) =>
    notAfter first stamp && decide (s.now < t + ((stamp - first).toNat + 1) * frameTime (laneCount x.tx))

/-- LINK_CTL ACK arrives; before ACTIVE it acknowledges the capability frame (R293). -/
def execAck (p : Fin 4) (stamp : Checked (BitVec 16)) (s : State) : Host.Outcome State Fault Refusal :=
  if !ctlTaken 1 stamp.val.toNat 0 stamp.check then .next s
  else match (s.port p.val).st with
  | .capability => .next (s.modPort p.val (fun x => { x with capAcked := true }))
  | .recovery => .next (s.modPort p.val (fun x => { x with capAcked := true }))
  | .active => .next (s.acked p.val stamp.val)
  | _ => .next s

/-- Credits come back for a virtual channel, never more than the peer's buffer holds (R282). -/
def State.credited (s : State) (p vc n : Nat) : State :=
  s.modPort p (fun x => startNext { x with credits := tset 0 x.credits vc (min (bufferOf vc) (tget 0 x.credits vc + n)) } s.now)

/-- LINK_CTL CREDIT arrives. -/
def execCredit (p : Fin 4) (vc : Fin 4) (count : Checked Nat) (s : State) : Host.Outcome State Fault Refusal :=
  let n := count.val
  if (s.port p.val).st == .active && decide (1 ≤ n) && decide (n ≤ 64) && ctlTaken 3 n vc.val count.check then .next (s.credited p.val vc.val n)
  else .next s

/-! ### Receiving (R280, R285) -/

/-- A message code that Table 14.1 lists for its frame type; other types are not read here. -/
def codeListed (ty code : Nat) : Bool :=
  match ty with
  | 2 => decide (1 ≤ code) && decide (code ≤ 5)
  | 3 => decide (1 ≤ code) && decide (code ≤ 3)
  | 4 => code == 1
  | 5 => decide (1 ≤ code) && decide (code ≤ 4)
  | _ => true

/-- A frame is treated as reserved: an unlisted type, another VC than its type's, an unlisted message code. -/
def isReserved (f : Nat) : Bool :=
  match typeVc (frType f) with
  | none => true
  | some vc => vc != frVc f || !codeListed (frType f) (frCode f)

/-- A frame is discarded: the run of discarded frames is answered by one NAK, unless a lane is at fault or its drop is pending (R285). -/
def State.discard (s : State) (p : Nat) (laneFault : Bool) : State :=
  let x := s.port p
  if x.nakSent || laneFault || x.asked.any (fun a => !a.2.1) then s
  else (s.setPort p { x with nakSent := true }).sendCtl p 2 (x.expected - 1).toNat 0

/-- The delivered frame goes to its consumer: reserved frames are counted and dropped, frames for another device are forwarded. A frame
from below tells behind which port its source lies, and a JOIN behind which its device does. -/
def State.consume (s : State) (p f : Nat) : State :=
  let s := if p != s.tree.upstream && frSrc f != 0 then
      let r := tset 0 s.tree.routes (frSrc f) (p + 1)
      { s with tree := { s.tree with routes := if frType f == 5 && frCode f == 1 then tset 0 r (fld f 144 10) (p + 1) else r } }
    else s
  if isReserved f then s.rcAddHalf (aCou p 0x0C) 16
  else if s.tree.id.isSome && frType f != 1 && !frBcast f && frDest f != s.ownId then
    let g := putFld (putFld f 72 8 (frHops f + 1)) 2016 32 0
    (s.portsTo (frDest f)).foldl (fun (s : State) q => if q = p then s else s.queueFrame q g) s
  else s.emit (.frameDelivered p f)

/-- A delivered frame must wait for a task slot: a PREPARE, or the first frame of a broadcast image (R267). -/
def State.mustHold (s : State) (f : Nat) : Bool :=
  s.role == 2 && s.freeSlots == 0 && !isReserved f && (frBcast f || frDest f == s.ownId)
    && ((frType f == 6 && frType f * 256 + frCode f == msgPrepare) || (frType f == 7 && f.testBit 136))

/-- The frames of a receive buffer go to their consumers in order, until one must wait, and each returns its credit (R282). -/
def State.drainVc (s : State) (p vc : Nat) : Nat → State
  | 0 => s
  | n + 1 =>
    match tget [] (s.port p).rxq vc with
    | [] => s
    | f :: rest =>
      if s.mustHold f.toNat then s
      else
        let s := s.modPort p (fun x => { x with rxq := tset [] x.rxq vc rest })
        ((s.consume p f.toNat).sendCtl p 3 1 vc).drainVc p vc n

/-- What waits in a port's receive buffers is tried again, a virtual channel at a time. -/
def State.drainRx (s : State) (p : Nat) : State :=
  (List.range 4).foldl (fun (s : State) vc => s.drainVc p vc (tget [] (s.port p).rxq vc).length) s

/-! ### Lanes and markers (R299 to R301) -/

/-- The LANE_DROP and LANE_ADD requests of a port that are not answered are repeated every 200 ns (R277, R300). -/
def State.repeatAsks (s : State) (p : Nat) : State :=
  let late := (s.port p).asked.filter (fun a => decide (a.2.2 ≤ s.now))
  let times := fun (a : Nat × Bool × Nat) => (s.now - a.2.2) / (200 * tuPerNs) + 1
  let t := s.modPort p (fun x => { x with asked := x.asked.map (fun a =>
    if a.2.2 ≤ s.now then (a.1, a.2.1, a.2.2 + times a * (200 * tuPerNs)) else a) })
  late.foldl (fun (t : State) a => t.emit (.repeats p (if a.2.1 then 5 else 4) (mapLane (s.port p).reversed a.1) (times a))) t

/-- A receiver asks for a lane to be dropped or added, by the transmitter's number for it, until it is answered. -/
def State.askLane (s : State) (p lane : Nat) (add : Bool) : State :=
  let x := s.port p
  let s := s.setPort p { x with
    asked := x.asked.filter (fun a => a.1 != lane) ++ [(lane, add, s.now + 200 * tuPerNs)] }
  s.sendCtl p (if add then 5 else 4) 0 (mapLane x.reversed lane)

/-- A lane change is set for the first marker that begins at least 100 ns after the request. -/
def State.setChange (s : State) (p lane : Nat) (add : Bool) (t : Nat) : State :=
  s.modPort p (fun x => if x.changes.any (fun c => c.1 == lane && c.2.1 == add) then x
    else { x with changes := x.changes ++ [(lane, add, t + 100 * tuPerNs)] })

/-- LINK_CTL LANE_DROP arrives at the transmitter (R300). -/
def execLaneDrop (p : Fin 4) (lane : Checked (Fin 4)) (t : Nat) (s : State) : Host.Outcome State Fault Refusal :=
  let l := lane.val.val
  if (s.port p.val).st == .active && (s.port p.val).tx.getLsbD l && ctlTaken 4 0 l lane.check then
    .next ((s.advance t).setChange p.val l false t)
  else .next s

/-- LINK_CTL LANE_ADD arrives at the transmitter, for a lane that was dropped (R301). -/
def execLaneAdd (p : Fin 4) (lane : Checked (Fin 4)) (t : Nat) (s : State) : Host.Outcome State Fault Refusal :=
  let x := s.port p.val
  let l := lane.val.val
  if x.st == .active && !x.tx.getLsbD l && x.admitted.getLsbD l && ctlTaken 5 0 l lane.check then
    .next ((s.advance t).setChange p.val l true t)
  else .next s

/-- A lane mask after changes. -/
def changeMask (m : BitVec 4) (cs : List (Nat × Bool × Nat)) : BitVec 4 :=
  cs.foldl (fun m c => if c.2.1 then m ||| (1 <<< c.1) else m &&& ~~~(1#4 <<< c.1)) m

/-- A dropped lane counts, asserts its source and posts LINK_STATE (R300). -/
def State.noteDrop (s : State) (p lane dir : Nat) : State :=
  (s.rcAddHalf (aCou p 0x14) 16).fault (56 + p) (dir + 2 ^ 8 * lane)

/-- LANE_RETURN_TIMEOUT: a dropped lane has been in order for 10 s: LANE_ADD is sent, where AUTO_ADD is set (R301). -/
def execLaneReturnTimeout (p : Fin 4) (lane : Fin 4) (s : State) : Host.Outcome State Fault Refusal :=
  let x := s.port p.val
  match tget none x.laneSince lane.val with
  | none => .next s
  | some t =>
    if x.st != .active || x.rx.getLsbD lane.val || !(s.reg (aCou p.val 0)).testBit 1 then .next s
    else .next ((s.advance (t + 10 * tuPerSec)).askLane p.val lane.val true)

/-- The path that COU_TEST selects (R304). -/
def State.loopPath (s : State) (p : Nat) : TestPath := testPath (fld (s.reg (aCou p 0x28)) 0 3)

/-- A lane's checker serves: in TEST on every lane, but for a port that serves as the far end of a loop; in ACTIVE on a dropped lane
(R303, R304). -/
def State.checkerServes (s : State) (p lane : Nat) : Bool :=
  let x := s.port p
  (x.st == .test && s.loopPath p != .serveFar) || (x.st == .active && (tget none x.laneSince lane).isSome && !x.rx.getLsbD lane)

/-- The checkers of some lanes begin to seek their lock. -/
def State.startCheckers (s : State) (p : Nat) (lanes : List Nat) : State :=
  s.modPort p (fun x => { x with checkAt := lanes.foldl (fun t l => tset 0 t l s.now) x.checkAt, injAt := s.now })

/-- The generators of TEST send the selected pattern on every lane (R303). -/
def State.startPattern (s : State) (p : Nat) : State :=
  (s.startCheckers p [0, 1, 2, 3]).emit (.pattern p 0xF (fld (s.reg (aCou p 0x28)) 4 3))

/-- A bit error at a checker: one that is locked counts it, another seeks 64 error-free bits again (R303). -/
def State.checkerError (s : State) (p lane : Nat) : State :=
  if tget 0 (s.port p).checkAt lane + checkerLockBits * bitTime ≤ s.now then s.rcAdd (aCou p (0x38 + 4 * lane)) 1
  else s.modPort p (fun x => { x with checkAt := tset 0 x.checkAt lane s.now })

/-- CHECKER_BIT_ERROR: a checker that serves sees a bit error; a dropped lane's 10 s start again (R301, R303). -/
def execCheckerBitError (p : Fin 4) (lane : Fin 4) (s : State) : Host.Outcome State Fault Refusal :=
  if !s.checkerServes p.val lane.val then .next s
  else
    let s := s.checkerError p.val lane.val
    .next (if (s.port p.val).st == .active then
        s.modPort p.val (fun x => { x with laneSince := tset none x.laneSince lane.val (some s.now) })
      else s)

/-- Repeated injection up to now: in the port's own loops its locked checkers count the errors; elsewhere they go out on the lanes
(R303, R304). -/
def State.settleInject (s : State) (p : Nat) : State :=
  let v := s.reg (aCou p 0x28)
  let x := s.port p
  if x.st != .test || !v.testBit 11 then s
  else
    let s := s.setPort p { x with injAt := s.now }
    if (s.loopPath p).inside then
      (bitsOf 4 (fld v 7 4)).foldl (fun (s : State) l =>
        let e := injectedErrors bitTime (fld (s.reg (aCou p 0x2C)) 0 16 + 1) (tget 0 x.checkAt l) x.injAt s.now
        (s.rcAdd (aCou p (0x38 + 4 * l)) e.1).modPort p (fun y => { y with checkAt := tset 0 y.checkAt l e.2 })) s
    else s

/-- FILLER_ON from the peer: SKIP blocks from the next marker (R298). -/
def execFillerOn (p : Fin 4) (s : State) : Host.Outcome State Fault Refusal :=
  if (s.port p.val).st == .active then .next (s.modPort p.val (fun x => { x with fillerPending := true })) else .next s

/-! ### Bring-up (R289, R293) -/

/-- The peer's capability frame: bytes 2 to 9 of its payload are kept, and it is acknowledged (R293). In forwarded mode the upstream
device's TB_WARM governs a Branch that is not in HOLDOVER (R145). -/
def State.takeCapability (s : State) (p : Nat) (peer : BitVec 64) (tbWarm : Bool) : State :=
  let s := s.modPort p (fun x => { x with capSeen := true, peer := peer })
  let s := s.sendCtl p 1 0xFFFF 0
  if s.role == 2 && p == s.tree.upstream && s.forwarded && s.ptu.st != .holdover then s.setTbWarm tbWarm else s

/-- DETECT_POLL: receiver detection, every 1 ms; where lanes are found TRAIN begins on them (R289). -/
def execDetectPoll (p : Fin 4) (found : BitVec 4) (s : State) : Host.Outcome State Fault Refusal :=
  if (s.port p.val).st != .detect then .next s
  else
    let s := s.periodic (60 + p.val) tuPerMs
    if found = 0 then .next s
    else .next ((s.modPort p.val (fun x => { x with tx := found, rx := 0xF, found := found, foundRx := 0xF })).toState p.val .train (stateLimit .train))

/-- PORT_DOWN_RETRY: 10 ms after a failure a port with ENABLE set goes to DETECT (Table 13.5). -/
def execPortDownRetry (p : Fin 4) (s : State) : Host.Outcome State Fault Refusal :=
  let x := s.port p.val
  match x.st, x.retryDue with
  | .down, some t =>
    if (s.reg (aCou p.val 0)).testBit 0 then
      .next (((s.advance t).modPort p.val (fun x => { x with retryDue := none })).toState p.val .detect none)
    else .next s
  | _, _ => .next s

/-- The port goes DOWN. From ACTIVE or RECOVERY its replay buffer is discarded and counted, and its source asserts (R288). -/
def State.portDown (s : State) (p : Nat) (retry : Bool) : State :=
  let x := s.port p
  let lost := if x.st == .active || x.st == .recovery then x.replay.length else 0
  let was := x.st == .active || x.st == .recovery
  let s := s.setPort p { x with
      tx := 0, rx := 0, replay := [], credits := [], changes := [], failedAt := [], asked := [], laneSince := [], resends := 0
      nakAt := none, capSeen := false, capAcked := false, numbers := [], relocked := false, begun := [], rxq := [], txPos := 0
      eyeRunning := false, filler := false, fillerPending := false, everActive := false, lostFrames := satAdd 8 x.lostFrames lost
      retryDue := if retry then some (s.now + 10 * tuPerMs) else none }
  let s := if x.st == .down then s else s.toState p .down none
  if was then s.fault (64 + p) lost else s

/-! ### Commands and the eye scan (R302 to R306, Table 13.10) -/

/-- COU_CMD.TEST: TEST is entered only from DOWN. -/
def execCouCmdTest (p : Fin 4) (s : State) : Host.Outcome State Fault Refusal :=
  if (s.port p.val).st == .down && !s.boot.thermLatched then
    .next (((s.modPort p.val (fun x => { x with retryDue := none })).toState p.val .test none).startPattern p.val)
  else .next s

/-- COU_CMD.TEST_EXIT: TEST is left for DOWN, and bring-up follows. -/
def execCouCmdTestExit (p : Fin 4) (s : State) : Host.Outcome State Fault Refusal :=
  if (s.port p.val).st == .test then .next ((s.settleInject p.val).portDown p.val true) else .next s

/-- COU_CMD.INJECT_FRANK: the next frame sent in ACTIVE, a resent one too, carries a bad frank (R306). -/
def execCouCmdInjectFrank (p : Fin 4) (s : State) : Host.Outcome State Fault Refusal :=
  .next (s.modPort p.val (fun x => { x with injectFrank := true }))

/-- COU_CMD.BIT_SLIP: in raw mode a lane's word boundary moves one bit later. -/
def execCouCmdBitSlip (p : Fin 4) (lane : Fin 4) (s : State) : Host.Outcome State Fault Refusal :=
  if (s.port p.val).st == .test && (s.reg (aCou p.val 0x28)).testBit 3 then
    .next (s.modPort p.val (fun x => { x with slips := tmod 0 x.slips lane.val (fun n => (n + 1) % 66) }))
  else .next s

/-- COU_CMD.INJECT_ONCE: the generators of the lanes of INJ_LANES invert one bit: in TEST, where the port's own loops bring it to its
own checkers and else it goes out on the lane, and on a dropped lane in ACTIVE (R303, R304, Table 13.8). -/
def execCouCmdInjectOnce (p : Fin 4) (s : State) : Host.Outcome State Fault Refusal :=
  let x := s.port p.val
  let lanes := bitsOf 4 (fld (s.reg (aCou p.val 0x28)) 7 4)
  if x.st == .test then
    .next (match s.loopPath p.val with
      | .serveFar => s
      | .main => lanes.foldl (fun (s : State) l => s.emit (.bitError p.val l)) s
      | .farEnd => lanes.foldl (fun (s : State) l => s.emit (.bitError p.val l)) s
      | _ => lanes.foldl (fun (s : State) l => s.checkerError p.val l) s)
  else if x.st == .active then
    .next ((lanes.filter (fun l => !x.tx.getLsbD l && x.admitted.getLsbD l)).foldl (fun (s : State) l => s.emit (.bitError p.val l)) s)
  else .next s

/-- COU_CTRL.ENABLE written 1: the port is brought up. -/
def execCouCtrlEnableSet (p : Fin 4) (s : State) : Host.Outcome State Fault Refusal :=
  let s := s.setReg (aCou p.val 0) (putFld (s.reg (aCou p.val 0)) 0 1 1)
  if (s.port p.val).st == .down && (s.port p.val).retryDue.isNone && !s.boot.thermLatched then .next (s.toState p.val .detect none) else .next s

/-- The offset sampler runs from BIT_LOCK on (R302). -/
def samplerRuns : PortState → Bool
  | .down => false
  | .detect => false
  | .train => false
  | _ => true

/-- COU_EYE written: a scan starts, or starts again (R302). -/
def execCouEyeWrite (p : Fin 4) (value : W32) (s : State) : Host.Outcome State Fault Refusal :=
  let s := s.setReg (aCou p.val 0x48) (fld value.toNat 0 21)
  .next (s.modPort p.val (fun x => { x with
    eyeRunning := samplerRuns x.st, eyeSince := s.now, eyeMismatch := 0, eyeCompared := 0, eyeDone := false }))

/-- DWELL of a scan: other values than 10 to 40 act as 10. -/
def eyeDwell (v : Nat) : Nat := let d := fld v 15 6; if 10 ≤ d ∧ d ≤ 40 then d else 10

/-- Bits compared by a scan that runs: those of the time since it began, the dwell at most (R302). -/
def eyeSoFar (x : Port) (setting now : Nat) : Nat := min (2 ^ eyeDwell setting) ((now - x.eyeSince) / bitTime)

/-- EYE_SCAN_DONE: the dwell is complete. -/
def execEyeScanDone (p : Fin 4) (mismatch : Nat) (s : State) : Host.Outcome State Fault Refusal :=
  let n := 2 ^ eyeDwell (s.reg (aCou p.val 0x48))
  let x := s.port p.val
  if !x.eyeRunning then .next s
  else .next ((s.advance (x.eyeSince + n * bitTime)).modPort p.val (fun x => { x with
    eyeRunning := false, eyeMismatch := min mismatch n, eyeCompared := n, eyeDone := true }))

end Sys2Proof.Machine
end

