-- ==== Sys2Proof/Machine/Ptu.lean ====
section
/-! DEFINITION. The postmark time unit (chapter 14): seconds, the servo, time sources and domains, HOLDOVER, the two-way exchange, the
root phase, the pulse generators and the captured time. -/

namespace Sys2Proof.Machine

/-- A time as 96 bits: TU in [42:0], seconds in [95:48] (R313). -/
def time313 (t : Nat) : Nat := t % tuPerSec + 2 ^ 48 * (t / tuPerSec % 2 ^ 48)

/-- Timers of the PTU: the last whole second reached, announced in SYNC, and named in a ToD message. -/
def tmSecond : Nat := 80
def tmSync : Nat := 81
def tmTod : Nat := 82

def State.timer (s : State) (i : Nat) : Nat := tget 0 s.timers i
def State.setTimer (s : State) (i v : Nat) : State := { s with timers := tset 0 s.timers i v }
def State.setPtu (s : State) (p : Ptu) : State := { s with ptu := p }

/-- Every site of the device is IDLE. -/
def State.allIdle (s : State) : Bool := (List.range 32).all (fun k => (s.site k).st == .idle)

/-! ### PTU_CTRL (Table 14.4) -/

/-- PTU_CTRL as it acts: on a Branch its fields have no effect (R334). -/
def State.ptuCtrl (s : State) : Nat := if s.role = 2 then 0 else s.reg aPtuCtrl
/-- The source of a domain: 0 free-run, 1 PPS_IN and TOD_IN, 2 host. -/
def State.sourceOf (s : State) (b : Bool) : Nat := if b then fld s.ptuCtrl 2 2 else fld s.ptuCtrl 0 2
def State.dual (s : State) : Bool := s.ptuCtrl.testBit 4 && s.role == 1
/-- The active domain. -/
def State.activeB (s : State) : Bool := s.dual && s.ptu.domainB
def State.domainOf (s : State) (b : Bool) : Domain := if b then s.ptu.domB else s.ptu.domA
def State.setDomain (s : State) (b : Bool) (d : Domain) : State :=
  s.setPtu (if b then { s.ptu with domB := d } else { s.ptu with domA := d })

/-- The domain that a source feeds, if any. A Branch ignores SOURCE (R324). -/
def State.domainFor (s : State) (src : Nat) : Option Bool :=
  if s.role = 2 then none
  else if s.sourceOf false = src then some false
  else if s.dual && s.sourceOf true == src then some true
  else none

/-! ### Steps and the servo (R322, R323) -/

/-- Nearest integer of n / d, halves to even. -/
def roundDiv (n : Int) (d : Nat) : Int := if n < 0 then -(roundEven n.natAbs d : Int) else (roundEven n.natAbs d : Int)

/-- A number held within signed 32 bits. -/
def sat32 (v : Int) : Int := min (max v (-(2 ^ 31))) (2 ^ 31 - 1)

/-- System time is re-expressed from now on: the same time, a rate word. -/
def State.rebase (s : State) (rate : Int) : State :=
  s.setPtu { s.ptu with anchor := ptuUnits s.ptu s.now, anchorAt := s.now, rate := rate }

/-- System time steps by θ TU: every generator is disarmed and sets MISSED, STEP_NEEDED clears (R322, R333). -/
def State.stepTime (s : State) (theta : Int) : State :=
  let s := s.rebase s.ptu.rate
  let p := s.ptu
  let s := s.setPtu { p with
    anchor := ((p.anchor : Int) + theta * (2 ^ 48 : Nat)).toNat, stepped := true, integral := 0, stepNeeded := false
    gens := p.gens.map (fun e => (e.1, if e.2.arm then { e.2 with arm := false, missed := true } else e.2)) }
  s.setTimer tmSecond (s.ptuNow / tuPerSec)

/-- A step after the first lock: the device's commit epoch goes on with it (R323). -/
def State.stepAgain (s : State) (theta : Int) : State :=
  let s := s.stepTime theta
  { s with cfg := { s.cfg with epoch := (s.cfg.epoch + 1) % 2 ^ 32 } }

/-- The rate word of an integral (in 1/64 TU) and a measurement: proportional gain 1/8, integral gain 1/64, clamped (R322). -/
def servoRate (integral theta : Int) : Int := sat32 (roundDiv ((integral + 8 * theta) * (2 ^ 42 : Nat)) tuPerSec)

/-- HOLDOVER begins (R328). -/
def State.enterHoldover (s : State) : State :=
  if s.ptu.st == .holdover || s.ptu.st == .unset then s
  else ((s.setPtu { s.ptu with st := .holdover, holdSince := s.now }).event 0x000B 1 0).fault 70 0

/-- HOLDOVER ends: LOCKED again, which posts TIME_STATE, or LOCKING where the time was never stepped (R328). -/
def State.leaveHoldover (s : State) : State :=
  if s.ptu.st != .holdover then s
  else if s.ptu.stepped then (s.setPtu { s.ptu with st := .locked, degraded := false }).event 0x000B 0 0
  else s.setPtu { s.ptu with st := .locking, degraded := false }

/-- One call of the servo for an offset measurement (R322, R323). -/
def State.servo (s : State) (theta : Int) : State :=
  let s := s.setPtu { s.ptu with theta := sat32 theta }
  if !s.ptu.stepped then
    let s := s.stepTime theta
    if s.ptu.st == .holdover then s else s.setPtu { s.ptu with st := .locked }
  else if s.ptuCtrl.testBit 7 && s.allIdle && s.cfg.system.isNone && s.role != 2 then
    let s := s.setReg aPtuCtrl (putFld s.ptuCtrl 7 1 0)
    if s.role = 1 then s.setPtu { s.ptu with stepDue := some theta } else s.stepAgain theta
  else
    let big := decide (8000000000 < theta.natAbs)
    let i := s.ptu.integral + theta
    let s := s.setPtu { s.ptu with integral := i, nextRate := some (servoRate i theta), stepNeeded := s.ptu.stepNeeded || big }
    if big then s.fault 74 0 else s

/-- A domain has measured its offset: the active one feeds the servo, the other's is published (R324, R327). -/
def State.domainMeasure (s : State) (b : Bool) (theta : Int) : State :=
  let s := s.setDomain b { s.domainOf b with offset := theta }
  if b != s.activeB then s
  else
    let s := (s.servo theta).leaveHoldover
    if s.ptu.stepped then s.setPtu { s.ptu with st := .locked } else s

/-- The active domain changes: never a step, the integral is kept (R327). -/
def State.switchDomain (s : State) : State := (s.setPtu { s.ptu with domainB := !s.ptu.domainB }).event 0x000B 2 0

/-- AUTO_SWITCH is set, the active source is lost, and the other is OK (R327). -/
def State.autoSwitch (s : State) : State :=
  if s.dual && s.ptuCtrl.testBit 5 && s.ptu.st == .holdover && !(s.domainOf s.activeB).ok && (s.domainOf !s.activeB).ok then s.switchDomain
  else s

/-! ### Time sources (R325, R326) -/

/-- The whole second nearest to a time, in seconds. -/
def nearestSec (t : Nat) : Nat := (t + tuPerSec / 2) / tuPerSec

/-- PPS_EDGE: a rising edge of PPS_IN stamped at root TU `t`. -/
def execPpsEdge (t : Nat) (s : State) : Host.Outcome State Fault Refusal :=
  match s.domainFor 1 with
  | none => .next s
  | some b =>
    let s := s.advance t
    let d := s.domainOf b
    let told := d.todFor.isSome && decide (d.todEnd + 10 * tuPerMs ≤ t)
    let inTime := match d.lastEdge with
      | some u => decide (u + tuPerSec ≤ t + tuPerMs) && decide (t ≤ u + tuPerSec + tuPerMs)
      | none => false
    let n := if !told then 0 else if inTime then min 3 (d.edges + 1) else 1
    let stamp : Int := ptuTuAt s.ptu t
    let second := if told then d.todFor.getD 0 else nearestSec (ptuTuAt s.ptu t)
    let wasOk := d.ok
    let s := s.setDomain b { d with edges := n, lastEdge := some t, todFor := none, ok := d.ok || n == 3 }
    let s := if wasOk && (told || s.ptu.stepped) then s.domainMeasure b ((second * tuPerSec : Nat) - stamp) else s
    .next s.autoSwitch

/-- A ToD message is valid: MAGIC, VERSION and FRANK (Table 14.2). -/
def todValid (m : Nat) : Bool :=
  fld m 0 24 == 0x014454 && fld m 96 32 == (crc32c (bytesOf 12 m)).toNat

/-- TOD_MESSAGE: a message on TOD_IN ends at root TU `endT`; one that is not valid is ignored. -/
def execTodMessage (msg : BitVec 128) (endT : Nat) (s : State) : Host.Outcome State Fault Refusal :=
  let m := msg.toNat
  let s := s.advance endT
  if !todValid m then .next (s.fault 75 0)
  else
    match s.domainFor 1 with
    | none => .next s
    | some b => .next (s.setDomain b { s.domainOf b with todFor := some (fld m 32 48), todEnd := endT })

/-- PTU_HOST_OFS_TU written: one measurement, host minus device; the first steps the time (R326). A TU part of 1 s or more is out of
range and the write is ignored (R313). -/
def execPtuHostOfsTuWrite (value : BitVec 64) (s : State) : Host.Outcome State Fault Refusal :=
  match s.domainFor 2 with
  | none => .next s
  | some b =>
    if tuPerSec ≤ value.toInt.natAbs then .next s
    else
      let theta := toSigned 48 (s.reg64 aPtuHostSec) * (tuPerSec : Int) + value.toInt
      let s := s.setDomain b { s.domainOf b with ok := true, lastEdge := some s.now }
      .next (s.domainMeasure b theta).autoSwitch

/-- SOURCE_LOST: 2 s after its last edge PPS_IN is lost, 4 s after the last write the host is (R325 to R328). -/
def execSourceLost (domain : Bool) (s : State) : Host.Outcome State Fault Refusal :=
  let d := s.domainOf domain
  if !d.ok then .next s
  else
    let wait := if s.sourceOf domain = 1 then 2 * tuPerSec else 4 * tuPerSec
    let s := s.advance (d.lastEdge.getD 0 + wait)
    let s := s.setDomain domain { d with ok := false, edges := 0 }
    if domain != s.activeB then .next s
    else
      let s := s.fault 72 (b2n domain)
      if s.dual && s.ptuCtrl.testBit 5 && (s.domainOf !domain).ok then .next s.switchDomain else .next s.enterHoldover

/-- PTU_CTRL.SWITCH written, on a Postmaster with two domains (R327). -/
def execPtuCtrlSwitch (s : State) : Host.Outcome State Fault Refusal := if s.dual then .next s.switchDomain else .next s

/-- SYNC_IN_EDGE: its difference from the nearest whole second (R321). -/
def execSyncInEdge (t : Nat) (s : State) : Host.Outcome State Fault Refusal :=
  let s := s.advance t
  let v := ptuTuAt s.ptu t
  .next (s.setPtu { s.ptu with syncErr := (v : Int) - (nearestSec v * tuPerSec : Nat) })

/-! ### Whole seconds (R314, R321, R325) -/

/-- The next whole second, and the root TU at which it comes, less a lead. -/
def State.nextSecond (s : State) : Nat := s.timer tmSecond + 1
def State.beforeSecond (s : State) (lead : Nat) : Nat := rootOfPtu s.ptu (s.nextSecond * tuPerSec - lead)

/-- A step that SYNC announced for the second that has come: it applies where every site is IDLE; a Branch with a site that is not
leaves the commit epoch (R323). -/
def State.stepAtSecond (s : State) (n : Nat) : State :=
  match s.ptu.stepAt with
  | some (m, theta) =>
    if m ≠ n then s
    else
      let s := s.setPtu { s.ptu with stepAt := none }
      if s.allIdle then s.stepAgain theta
      else if s.role = 2 then { s with tree := { s.tree with inEpoch := false } }
      else s
  | none => s

/-- A device starts the exchange on each link to a tree child (R316). -/
def State.startExchanges (s : State) : State :=
  s.childPorts.foldl (fun (s : State) p =>
    let x := s.port p
    let s := s.setPort p { x with exSeq := x.exSeq + 1, exT1 := some s.ptuNow }
    s.sendPort p msgTSync 0 ((x.exSeq + 1).toNat + 2 ^ 16 * time313 s.ptuNow)) s

/-- PTU_SECOND: a whole PTU second: the new rate word, a step, SYNC_OUT and PPS_OUT, the exchanges. A Postmaster applies the word it
sent in SYNC (R314, R321). -/
def execPtuSecond (s : State) : Host.Outcome State Fault Refusal :=
  if !s.ptu.started then .next s
  else
    let n := s.nextSecond
    let s := (s.advance (s.beforeSecond 0)).setTimer tmSecond n
    let next := if s.role = 1 then s.ptu.sent else s.ptu.nextRate
    let s := match next with | some r => s.rebase r | none => s
    let s := s.setPtu { s.ptu with sent := none, nextRate := if s.role = 1 then s.ptu.nextRate else none }
    let s := if s.ptuCtrl.testBit 10 then s.emit (.syncOut s.now) else s
    let s := if s.ptuCtrl.testBit 8 then s.emit (.ppsOut s.now) else s
    .next (s.stepAtSecond n).startExchanges

/-- The value of a message SECOND (Table 14.1). -/
def secondArg (secs : Nat) (rate : Int) (epoch : Nat) (warm domain : Bool) (step : Int) : Nat :=
  secs % 2 ^ 48 + 2 ^ 48 * ofSigned 32 rate + 2 ^ 80 * (epoch % 2 ^ 32) + 2 ^ 112 * b2n warm + 2 ^ 120 * b2n domain
    + 2 ^ 128 * ofSigned 64 step

/-- SYNC_SECOND_DUE: 100 ms before each second the Postmaster sends SYNC SECOND (R321, R323). -/
def execSyncSecondDue (s : State) : Host.Outcome State Fault Refusal :=
  let n := s.nextSecond
  if s.role != 1 || !s.ptu.started || decide (n ≤ s.timer tmSync) then .next s
  else
    let s := (s.advance (s.beforeSecond (100 * tuPerMs))).setTimer tmSync n
    let rate := s.ptu.nextRate.getD s.ptu.rate
    let step := s.ptu.stepDue.getD 0
    let s := s.setPtu { s.ptu with
      sent := some rate, nextRate := none, stepDue := none, stepAt := if step = 0 then s.ptu.stepAt else some (n, step) }
    .next (s.send msgSecond toAll (secondArg n rate s.cfg.epoch s.ptu.tbWarm s.activeB step))

/-- TOD_OUT_DUE: 500 ms before each second a ToD message names it (R325). -/
def execTodOutDue (s : State) : Host.Outcome State Fault Refusal :=
  let n := s.nextSecond
  if !s.ptuCtrl.testBit 9 || !s.ptu.started || decide (n ≤ s.timer tmTod) then .next s
  else
    let s := (s.advance (s.beforeSecond (500 * tuPerMs))).setTimer tmTod n
    let m := 0x014454 + 2 ^ 24 * b2n (s.ptu.st == .locked) + 2 ^ 32 * (n % 2 ^ 48)
    .next (s.emit (.tod (m + 2 ^ 96 * (crc32c (bytesOf 12 m)).toNat)))

/-! ### The two-way exchange (R316, R317, R319, R320) -/

/-- T_SYNC at B: stamped, and answered with T_REQ. -/
def execTSync (p : Fin 4) (seq : BitVec 16) (t1 t2 : Nat) (s : State) : Host.Outcome State Fault Refusal :=
  if s.role != 2 || !s.tree.inTree || p.val != s.tree.upstream then .next s
  else
    let s := s.modPort p.val (fun x => { x with exSeq := seq, exT1 := some t1, exT2 := t2, exT3 := s.ptuNow })
    .next (s.sendPort p.val msgTReq 0 (seq.toNat + 2 ^ 16 * time313 s.ptuNow))

/-- T_REQ at A: answered with T_RESP, which carries t4, the link's asymmetry and the clock's path delay. What the two ends measured of
their own latencies is a free value (notes/assumptions/30.md). -/
def execTReq (p : Fin 4) (seq : BitVec 16) (_t3 t4 : Nat) (s : State) : Host.Outcome State Fault Refusal :=
  let x := s.port p.val
  if x.exT1.isNone || x.exSeq != seq || x.child.isNone then .next s
  else
    let a := toSigned 32 (s.free 30) + toSigned 16 (s.reg (aPtuAsym p.val))
    let s := s.drawn.setPort p.val { x with exT1 := none }
    .next (s.sendPort p.val msgTResp 0 (seq.toNat + 2 ^ 16 * time313 t4 + 2 ^ 112 * ofSigned 32 a + 2 ^ 144 * (x.path % 2 ^ 24)))

/-- The device's grid follows its parent's: ALIGNED (R318). -/
def State.alignCheck (s : State) : State :=
  if s.role == 2 && s.forwarded && s.tree.inTree && (s.port s.tree.upstream).skewDone && s.ptu.phaseToWalk == 0
      && s.ptu.st != .holdover then
    { s with tree := { s.tree with aligned := true } }
  else s

/-- Three exchanges in a row beyond 400 TU clear ALIGNED and restart skew calibration (R317). -/
def State.slipCheck (s : State) (theta : Int) : State :=
  let n := if 400 < theta.natAbs then s.tree.misaligned + 1 else 0
  if n < 3 then { s with tree := { s.tree with misaligned := n } }
  else
    let s := { s with tree := { s.tree with misaligned := 0, aligned := false } }
    (s.modPort s.tree.upstream (fun x => { x with skewDone := false })).fault 73 0

/-- T_RESP at B: the offset and the delay. Discarded: a frame was resent, B sent a NAK, or more than 10 ms have gone since t1, by B's
own clock those since t2 and the one-way delay (R316). In local-reference mode the offset feeds the servo; in forwarded mode it gives the first step and the slip check (R317). -/
def execTResp (p : Fin 4) (seq : BitVec 16) (t4 : Nat) (asym : Int) (resent naked : Bool) (walk : Int) (s : State) :
    Host.Outcome State Fault Refusal :=
  let x := s.port p.val
  match x.exT1 with
  | none => .next s
  | some t1 =>
    if s.role != 2 || !s.tree.inTree || p.val != s.tree.upstream || x.exSeq != seq then .next s
    else
      let s := s.setPort p.val { x with exT1 := none }
      let down := (x.exT2 : Int) - t1
      let up := (t4 : Int) - x.exT3
      if resent || naked || decide ((x.exT2 : Int) + 10 * (tuPerMs : Nat) < s.ptuNow + roundDiv (down + up + asym) 2) then .next s
      else
        let theta := roundDiv (down - up - asym) 2
        let s := s.setPtu { s.ptu with theta := sat32 theta, lastExchange := s.now }
        let s := s.modPort p.val (fun x => { x with flight := (roundDiv (down + up + asym) 2).toNat, skewDone := true })
        if !s.forwarded then
          let s := (s.servo (-theta)).leaveHoldover
          .next (s.setPtu { s.ptu with theta := sat32 theta })
        else
          let s := if s.ptu.stepped then s.slipCheck theta else
            let s := s.stepTime (-theta)
            if s.ptu.st == .holdover then s else s.setPtu { s.ptu with st := .locked }
          .next (s.setPtu { s.ptu with phaseToWalk := walk }).alignCheck

/-- EXCHANGE_TIMEOUT: an exchange has not completed within 10 ms of t1. -/
def execExchangeTimeout (p : Fin 4) (s : State) : Host.Outcome State Fault Refusal :=
  match (s.port p.val).exT1 with
  | none => .next s
  | some t1 =>
    let begun := if s.role = 2 ∧ p.val = s.tree.upstream then (s.port p.val).exT2 else t1
    .next ((s.advance (rootOfPtu s.ptu (begun + 10 * tuPerMs))).modPort p.val (fun x => { x with exT1 := none }))

/-- EXCHANGE_LOSS: a Branch in local-reference mode has had no valid exchange for 4 s (R328). -/
def execExchangeLoss (s : State) : Host.Outcome State Fault Refusal :=
  if s.role != 2 || s.forwarded || s.ptu.st == .unset || s.ptu.st == .holdover then .next s
  else .next (s.advance (s.ptu.lastExchange + 4 * tuPerSec)).enterHoldover

/-- ROOT_PHASE_STEP: the root phase walks one step of 62.5 fs, one per 4 µs at most (R319, R328). -/
def execRootPhaseStep (up : Bool) (s : State) : Host.Outcome State Fault Refusal :=
  let w := s.ptu.phaseToWalk
  if (up && decide (w ≤ 0)) || (!up && decide (0 ≤ w)) then .next s
  else
    let d : Int := if up then 1 else -1
    let s := s.advance (s.ptu.phaseAt + 4 * tuPerUs)
    .next (s.setPtu { s.ptu with phaseToWalk := w - d, phase := s.ptu.phase + d, phaseAt := s.now }).alignCheck

/-! ### HOLDOVER of a Branch in forwarded mode (R298, R328) -/

/-- FCLK_IN_LOSS: the upstream port loses FCLK_IN: the root switches to the device's own OCXO with a phase step of at most 2 ps, which
is to be walked out; FILLER_ON goes up the link, and SKIP blocks follow once it is acknowledged. -/
def execFclkInLoss (step : Int) (s : State) : Host.Outcome State Fault Refusal :=
  let u := s.tree.upstream
  if s.role != 2 || !s.tree.inTree || !s.forwarded || !(s.port u).fclkOk || decide (32 < step.natAbs) then .next s
  else
    let s := s.modPort u (fun x => { x with fclkOk := false })
    let s := { s with boot := { s.boot with refFclk := false } }
    let s := (s.fault 68 0).enterHoldover
    let s := s.setPtu { s.ptu with phaseToWalk := s.ptu.phaseToWalk - step }
    .next (s.sendPort u msgFillerOn 0 0)

/-- DEGRADED: 60 s after the switch, on the Branch and on every device below it: runs under CS carry COHERENCE_DEGRADED (R328). -/
def execDegraded (s : State) : Host.Outcome State Fault Refusal :=
  if s.role != 2 || s.ptu.degraded then .next s
  else
    let s := if s.ptu.st == .holdover then s.advance (s.ptu.holdSince + 60 * tuPerSec) else s
    let s := s.setPtu { s.ptu with degraded := true }
    let s := (List.range 32).foldl (fun (s : State) k =>
      if siteOn s.cv k mCS && ((s.site k).st == .run || (s.site k).st == .hold || (s.site k).st == .drain) then
        s.modSite k (fun x => { x with conditions := x.conditions ||| 16 })
      else s) s
    .next (s.fault 71 0)

/-! ### Pulse generators (R333) -/

def State.genStart (s : State) (g : Nat) : Nat := fld (s.reg64 (aGen g 0)) 0 48 * tuPerSec + fld (s.reg64 (aGen g 8)) 0 43
def State.genPeriod (s : State) (g : Nat) : Nat := s.reg64 (aGen g 0x10)
def State.genCount (s : State) (g : Nat) : Nat := fld (s.reg (aGen g 0x18)) 16 16

/-- The series of `n` instants gone by has ended. -/
def seriesOver (period count n : Nat) : Bool := if period = 0 then decide (1 ≤ n) else count != 0 && decide (count ≤ n)

/-- PTU_GEN_CTRL.ARM set: the series starts; instants that have passed are skipped. -/
def execPtuGenCtrlArm (g : Fin 8) (s : State) : Host.Outcome State Fault Refusal :=
  let g := g.val
  let x := s.gen g
  let start := s.genStart g
  let p := s.genPeriod g
  let t := s.ptuNow
  if x.arm then .next s
  else
    let n := if t ≤ start then 0 else if p = 0 then 1 else ceilDiv (t - start) p
    let ends := seriesOver p (s.genCount g) n
    .next (s.setGen g { arm := !ends, missed := p == 0 && n == 1, next := start + n * p, fired := n })

/-- GENERATOR_INSTANT: an armed generator fires: the lines routed to it are pulsed (R204, R333). -/
def execGeneratorInstant (g : Fin 8) (s : State) : Host.Outcome State Fault Refusal :=
  let g := g.val
  let x := s.gen g
  if !x.arm then .next s
  else
    let t := rootOfPtu s.ptu x.next
    let s := (s.advance t).causeWhere 2 t (fun _ r => routeArg r == g)
    let p := s.genPeriod g
    let ends := seriesOver p (s.genCount g) (x.fired + 1)
    .next (s.setGen g { x with arm := !ends, next := x.next + p, fired := x.fired + 1 })

/-! ### The captured time (R315) -/

/-- PTU_TIME_CAPTURE: a read of the low half of PTU_TIME_TU captures system time. -/
def execPtuTimeCapture (s : State) : Host.Outcome State Fault Refusal :=
  let t := s.ptuNow
  .next ((s.setPtu { s.ptu with captured := some (t % tuPerSec, t / tuPerSec % 2 ^ 48) }).emit (.readValue 0x7010 (fld (t % tuPerSec) 0 32)))

/-- PTU_TIME_RELEASE: a read of the high half of PTU_TIME_SEC returns the captured seconds and releases the capture. -/
def execPtuTimeRelease (s : State) : Host.Outcome State Fault Refusal :=
  let sec := match s.ptu.captured with | some (_, v) => v | none => s.ptuNow / tuPerSec % 2 ^ 48
  .next ((s.setPtu { s.ptu with captured := none }).emit (.readValue 0x701C (fld sec 32 16)))

end Sys2Proof.Machine
end

