-- ==== Sys2Proof/Machine/Hierarchy.lean ====
section
/-! DEFINITION. The tree (chapter 14): enumeration, path latencies, match tables, SYNC, joining and leaving, and what a port's coming
and going means to them. -/

namespace Sys2Proof.Machine

/-! ### Latencies (R312, R331) -/

/-- Rounded up to a whole nanosecond. -/
def wholeNs (t : Nat) : Nat := ceilDiv t tuPerNs * tuPerNs

/-- The devices in the tree. -/
def State.inTree (s : State) : List Node := s.tree.nodes.filter (·.inTree)

/-- L_sys of the Postmaster's tree. -/
def State.computeLsys (s : State) : Nat := (s.inTree.map (fun n => wholeNs n.path)).foldl max 0

/-- Device `d` lies in the subtree of device `c`, itself included. -/
def State.inSubtreeOf (s : State) (c d : Nat) : Bool := c == 0 || c == d || isAbove s.tree.nodes c 10 d

/-- Path latency of a device before rounding; the Postmaster's is 0. -/
def State.pathOf (s : State) (d : Nat) : Nat := match s.tree.nodes.find? (fun n => n.id == d) with | some n => n.path | none => 0

/-- M of a combiner: the largest path latency from it down to a device of its subtree. The 4 ns of the combiner's own forwarding lie in
the devices' paths and not in M. -/
def State.combinerM (s : State) (c : Nat) : Nat :=
  ((s.inTree.filter (fun n => n.id != c && s.inSubtreeOf c n.id)).map (fun n =>
    if c = 0 then wholeNs n.path else wholeNs (n.path - s.pathOf c - 32000))).foldl max 0

/-- H of a group with a combiner, before the clamp (R331). -/
def State.combinerH (s : State) (c : Nat) : Nat := ceilDiv (2 * s.combinerM c + 64000) 8000 * 8000

/-! ### Match tables (Table 14.1) -/

/-- A match-group record for a device: group, combiner, H, IN_SUBTREE. -/
def State.matchRecord (s : State) (g d : Nat) : List Byte :=
  let c := (s.mgroup g).combiner
  bytesOf 7 (g + 2 ^ 8 * c + 2 ^ 24 * min 3200000 (s.combinerH c) + 2 ^ 48 * b2n (s.inSubtreeOf c d))

/-- Send a device the records of some groups, 33 to a frame. -/
def State.sendTable (s : State) (d : Nat) (gs : List Nat) : State :=
  (chunks 231 9 (gs.flatMap (fun g => s.matchRecord g d))).foldl (fun s bs => s.sendBytes msgTable d bs) s

/-- Send every device of the tree the records of some groups. -/
def State.sendTables (s : State) (gs : List Nat) : State := s.inTree.foldl (fun s n => s.sendTable n.id gs) s

/-- Groups 1 to 255. -/
def allGroups : List Nat := (List.range 255).map (· + 1)

/-- The groups with a chosen combiner keep their H up to date on the Postmaster. -/
def State.refreshGroups (s : State) : State :=
  { s with tree := { s.tree with groups := s.tree.groups.map (fun e =>
    (e.1, if e.2.known then { e.2 with h := min 3200000 (s.combinerH e.2.combiner) } else e.2)) } }

/-! ### Enumeration (R309 to R312) -/

/-- Value of a message ASSIGN (Table 14.1). -/
def assignArg (id hops up lsys perHop : Nat) : Nat := id + 2 ^ 16 * hops + 2 ^ 24 * up + 2 ^ 32 * lsys + 2 ^ 56 * perHop

/-- A link's per-hop figure without its flight time: 34.98 ns (R312). -/
def perHopFixed : Nat := 279840

/-- What a device adds to a path that it forwards through: 4 ns, and nothing on the Postmaster, where the path begins (R312). -/
def forwardTime (parent : Nat) : Nat := if parent = 0 then 0 else 32000

/-- The path latency, before rounding, of a device behind a parent's link of a flight time: on its own ports the Postmaster has measured
it (R312). -/
def State.pathVia (s : State) (p parent flight : Nat) : Nat :=
  s.pathOf parent + forwardTime parent + perHopFixed + (if parent = 0 then (s.port p).flight else flight)

/-- ASSIGN to a device: on the Postmaster's own port, or by its parent. It carries the per-hop figure of the device's link. -/
def State.sendAssign (s : State) (n : Node) : State :=
  let arg := assignArg n.id n.hops n.arrival s.tree.lsys ((n.path - s.pathOf n.parent - forwardTime n.parent) % 2 ^ 24)
  if n.parent = 0 then
    match (List.range 4).find? (fun p => (s.port p).child == some n.id) with
    | some p => s.sendPort p msgAssign n.id arg
    | none => s
  else s.send msgAssign n.parent arg

/-- L_sys is recomputed and published: ASSIGN goes to every device where it has changed, and MATCH_TABLE to every device. -/
def State.publishTree (s : State) : State :=
  let l := s.computeLsys
  let moved := l != s.tree.lsys
  let s := { s with tree := { s.tree with lsys := l } }
  let s := if moved then s.inTree.foldl (fun s n => s.sendAssign n) s else s
  s.refreshGroups.sendTables allGroups

/-- The lowest id that is free. -/
def State.freeId (s : State) : Option Nat :=
  ((List.range 1024).drop 1).find? (fun i => !s.tree.nodes.any (fun n => n.id == i))

/-- R310 refuses a Branch. -/
def State.refusesNode (s : State) (known : Bool) (hops path : Nat) : Bool :=
  (!known && s.freeId.isNone) || decide (10 < hops) || decide (3200000 < wholeNs path)
    || (!s.forwarded && decide (31 ≤ s.inTree.length))

/-- DISCOVER goes to the neighbours of a device through its other ports, but for those that lead to devices of the tree. -/
def State.discoverBelow (s : State) (id hops arrival : Nat) : State :=
  (List.range 4).foldl (fun (s : State) q =>
    if q = arrival || s.inTree.any (fun n => n.parent == id && n.port == q) then s else s.send msgDiscover id (hops + 1 + 2 ^ 8 * id + 2 ^ 24 * q)) s

/-- The Postmaster's link on a port is ACTIVE: enumeration visits what lies behind it (R309, R311). -/
def State.discoverPort (s : State) (p : Nat) : State :=
  if s.role = 1 ∧ p ≤ 2 then s.sendPort p msgDiscover 0 (1 + 2 ^ 24 * p) else s

/-- A device in the order of the visit: level by level, by ascending id (R309). -/
def insertNode (n : Node) : List Node → List Node
  | [] => [n]
  | m :: ms => if n.hops < m.hops || (n.hops == m.hops && decide (n.id ≤ m.id)) then n :: m :: ms else m :: insertNode n ms

/-- The tree is enumerated again: every ACTIVE link that is no tree link is tried, in the order of the visit (R309, R311). -/
def State.enumerate (s : State) : State :=
  let own := (List.range 3).filter (fun p => (s.port p).st == .active && (s.port p).child.isNone)
  (s.inTree.foldr insertNode []).foldl (fun (s : State) n => s.discoverBelow n.id n.hops n.arrival)
    (own.foldl (fun (s : State) p => s.discoverPort p) s)

/-- DISCOVER: the parent passes it on through the named port; a device that is reached for the first time answers, and the port is its
upstream port until the link goes; one that is reached again through another link answers ALREADY, and that link becomes a cross link
(R13, R309). A device that is enumerated again over its upstream link had left the tree with a device above it
(R329). -/
def execDiscover (p : Fin 4) (hops : Nat) (parent : BitVec 10) (parentPort : Fin 4) (s : State) : Host.Outcome State Fault Refusal :=
  let p := p.val
  if s.role = 0 then .next s
  else if s.tree.inTree && s.tree.id == some parent.toNat && s.role == 2 then
    if (s.port parentPort.val).st == .active && parentPort.val != s.tree.upstream then
      .next (s.sendPort parentPort.val msgDiscover parent.toNat (hops + 2 ^ 8 * parent.toNat + 2 ^ 24 * parentPort.val))
    else .next s
  else if s.role = 1 || (s.tree.reached && p != s.tree.upstream) then
    .next ((s.modPort p (fun x => { x with cross := true })).sendPort p msgAlready 0 s.ownId)
  else
    let s := if s.tree.inTree then { s with tree := { s.tree with inEpoch := false } }
      else { s with tree := { s.tree with upstream := p, reached := true, hops := hops, inEpoch := false } }
    let flags := b2n (fld s.boot.straps.toNat 2 2 == 2 && decide (s.boot.stage < 5))
    .next (s.sendPort p msgAnswer 0 (Config.serial.toNat + 2 ^ 64 * s.role + 2 ^ 72 * p + 2 ^ 80 * flags))

/-- ANSWER: a parent notes the port; the Postmaster gives the device an id, or refuses it. The device lies a hop further than the frame
has come (R280, R309, R310, R312). -/
def execAnswer (p : Fin 4) (serial : BitVec 64) (_role : Fin 4) (arrival : Fin 4) (needImage : Bool) (parent : BitVec 10)
    (parentPort : Fin 4) (hops flight : Nat) (s : State) : Host.Outcome State Fault Refusal :=
  let p := p.val
  if s.role = 2 && s.tree.id == some parent.toNat then
    .next { s with tree := { s.tree with asked := s.tree.asked ++ [(parentPort.val, arrival.val)] } }
  else if s.role ≠ 1 then .next s
  else
    let known := s.tree.nodes.find? (fun (n : Node) => n.serial == serial)
    let hops := hops + 1
    let path := s.pathVia p parent.toNat flight
    if s.refusesNode known.isSome hops path then
      .next ((s.event 7 parentPort.val hops).fault 69 (parentPort.val + 2 ^ 8 * hops))
    else
      let id := match known with | some n => n.id | none => s.freeId.getD 0
      let n : Node := { id := id, serial := serial, hops := hops, path := path, parent := parent.toNat, arrival := arrival.val, port := parentPort.val, inTree := true }
      let s := { s with tree := { s.tree with nodes := s.tree.nodes.filter (fun (n : Node) => n.serial != serial) ++ [n] } }
      let s := if parent = 0 then s.modPort p (fun x => { x with child := some id, cross := false }) else s
      let same := s.computeLsys == s.tree.lsys
      let s := if same then s.sendAssign n else s
      let s := s.publishTree.discoverBelow id hops arrival.val
      .next (if needImage then s.sendImages id else s)

/-- ASSIGN: a Branch takes its id and place; a parent passes on what is meant for the device that answered first from that port of its own. Time
starts counting, unlocked; a Branch that follows a forwarded clock again leaves HOLDOVER (R309, R312, R313, R328). A root that is locked
anew to FCLK_IN takes the ports through RECOVERY into forwarded operation, in which the device stays in the tree (R434;
notes/assumptions/56.md). -/
def execAssign (p : Fin 4) (id : BitVec 10) (place : TreePlace) (lsys perHop : Nat) (s : State) : Host.Outcome State Fault Refusal :=
  let p := p.val
  if s.role ≠ 2 then .next s
  else if !s.tree.inTree || s.tree.id == some id.toNat then
    let s := { s with tree := { s.tree with
      id := some id.toNat, inTree := true, hops := place.hops, upstream := if s.tree.reached then s.tree.upstream else p, reached := true, lsys := lsys } }
    let fclk := s.forwarded && (s.port s.tree.upstream).fclkOk
    let relocks := fclk && !s.boot.refFclk
    let s := { s with boot := { s.boot with refFclk := fclk } }
    let s := if !s.ptu.started then
        s.setPtu { s.ptu with started := true, anchor := 0, anchorAt := s.now, st := .locking, lastExchange := s.now }
      else if fclk then s.leaveHoldover else s
    .next (if relocks then (List.range 4).foldl (fun (s : State) q => s.beginRecovery q) s else s)
  else
    let arg := assignArg id.toNat place.hops place.port.val lsys perHop
    match (List.range 4).find? (fun q => (s.port q).child == some id.toNat), s.tree.asked.find? (fun a => a.2 == place.port.val) with
    | some q, _ => .next (s.sendPort q msgAssign id.toNat arg)
    | none, none => .next s
    | none, some a =>
      let s := { s with tree := { s.tree with asked := s.tree.asked.erase a } }
      .next ((s.modPort a.1 (fun x => { x with child := some id.toNat, cross := false })).sendPort a.1 msgAssign id.toNat arg)

/-- ALREADY: the link is a cross link; it stays ACTIVE and carries only LINK frames (R309). -/
def execAlready (p : Fin 4) (_id : BitVec 10) (s : State) : Host.Outcome State Fault Refusal :=
  .next (s.modPort p.val (fun x => { x with cross := true, child := none }))

/-! ### Match configuration (R330 to R332) -/

/-- MATCH_TABLE: one record. A device that leaves the combiner's subtree sends LEAVE, and source 20 is false for its sites (R332). -/
def execMatchTable (group : BitVec 8) (combiner : BitVec 10) (h : Nat) (inSubtree : Bool) (s : State) :
    Host.Outcome State Fault Refusal :=
  let g := group.toNat
  if s.role ≠ 2 || g = 0 then .next s
  else
    let ks := s.groupRunSites g
    let s := if !inSubtree && !ks.isEmpty then
        (ks.foldl (fun (s : State) k => s.modSite k (fun x => { x with joined := none })) s).matchLeave g s.ownId
      else s
    .next (s.setMgroup g { s.mgroup g with combiner := combiner.toNat, h := h, inSubtree := inSubtree, known := true })

/-- PTU_MATCH_CFG written on the Postmaster: the combiner of the selected group; one whose H would exceed 400 ns, or that is in no tree,
is ignored and MATCH_REFUSED is set (R331). -/
def execPtuMatchCfgWrite (combiner : BitVec 10) (s : State) : Host.Outcome State Fault Refusal :=
  let c := combiner.toNat
  let g := fld (s.reg aMatchSel) 0 8
  if s.role ≠ 1 || g = 0 then .next s
  else if (c != 0 && !s.inTree.any (fun n => n.id == c)) || (c != 0 && decide (3200000 < s.combinerH c)) then
    .next (s.setPtu { s.ptu with matchRefused := true })
  else
    let s := s.setPtu { s.ptu with matchRefused := false }
    let s := s.setMgroup g { s.mgroup g with
        combiner := c, h := min 3200000 (s.combinerH c), inSubtree := c == 0, known := true }
    .next (s.sendTables [g])

/-! ### SYNC and the commit epoch (R321, R323, R329) -/

/-- SECOND on a Branch: forwarded downwards; the rate word for the second in forwarded mode, TB_WARM, the active domain, a step; the
commit epoch, once the device is resynchronised (R329). -/
def execSecond (p : Fin 4) (secs : Nat) (rate : W32) (epoch : W32) (tbWarm domain : Bool) (step : Int) (s : State) :
    Host.Outcome State Fault Refusal :=
  if s.role != 2 || !s.tree.inTree || p.val != s.tree.upstream then .next s
  else
    let s := s.send msgSecond toAll (secondArg secs rate.toInt epoch.toNat tbWarm domain step)
    let s := s.setPtu { s.ptu with
      nextRate := if s.forwarded then some rate.toInt else s.ptu.nextRate, domainB := domain
      stepAt := if step = 0 then s.ptu.stepAt else some (secs, step) }
    let s := if s.forwarded && s.ptu.st != .holdover then s.setTbWarm tbWarm else s
    let ready := s.ptu.stepped && (s.port p.val).skewDone && decide (s.ptu.theta.natAbs ≤ 8000) && (!s.forwarded || s.tree.aligned)
    if !s.tree.inEpoch && ready then
      .next { s with tree := { s.tree with inEpoch := true }, cfg := { s.cfg with epoch := epoch.toNat },
                     ptu := { s.ptu with degraded := s.ptu.degraded && s.ptu.st == .holdover } }
    else .next s

/-- SKEW_CALIBRATION at A: a link's clock delay is published and its flight time measured; the Postmaster recomputes L_sys where it has
moved by more than 100 ps (R312, R319). -/
def execSkewCalibration (p : Fin 4) (pathTu flight : Nat) (s : State) : Host.Outcome State Fault Refusal :=
  let p := p.val
  let x := s.port p
  if x.st != .active then .next s
  else
    let s := s.setPort p { x with path := pathTu % 2 ^ 24, flight := flight, skewDone := true }
    match x.child with
    | none => .next s
    | some c =>
      let d : Int := (flight + perHopFixed : Nat) - (s.pathOf c : Int)
      if s.role ≠ 1 || decide (d.natAbs ≤ 800) then .next s
      else
        let nodes := s.tree.nodes.map (fun n => if s.inSubtreeOf c n.id then { n with path := ((n.path : Int) + d).toNat } else n)
        .next ({ s with tree := { s.tree with nodes := nodes } }).publishTree

/-! ### Links that come and go (R288, R289, R311, R328, R329) -/

/-- A link enters ACTIVE: calibration of the link starts afresh; the Postmaster enumerates what lies behind it. -/
def State.linkUp (s : State) (p : Nat) : State := (s.modPort p (fun x => { x with skewDone := false })).discoverPort p

/-- A Branch leaves the tree with its upstream link: HOLDOVER begins, and in forwarded mode the root switches to the device's own OCXO
with a phase step of at most 2 ps, 32 walk steps, which the spec does not state: a free value (R328, R329). It keeps its id (R309). -/
def State.leaveTree (s : State) : State :=
  let s := s.enterHoldover
  let s := if s.boot.refFclk then
      let step : Int := (s.free 32 % 65 : Nat) - 32
      let s := s.drawn
      { s with boot := { s.boot with refFclk := false }, ptu := { s.ptu with phaseToWalk := s.ptu.phaseToWalk - step } }
    else s
  { s with tree := { s.tree with inTree := false, inEpoch := false, aligned := false } }

/-- A link has left ACTIVE: the Postmaster drops the subtree behind it and enumerates again; a Branch whose upstream link it was leaves
the tree (R311, R329). -/
def State.linkGone (s : State) (p : Nat) : State :=
  let child := (s.port p).child
  let s := s.modPort p (fun x => { x with child := none, cross := false, skewDone := false, exT1 := none })
  let s := { s with tree := { s.tree with routes := s.tree.routes.filter (fun e => e.2 != p + 1), asked := s.tree.asked.filter (fun a => a.1 != p) } }
  if s.role = 1 then
    match child with
    | none => s
    | some c =>
      let nodes := s.tree.nodes.map (fun n => if n.id == c || isAbove s.tree.nodes c 10 n.id then { n with inTree := false } else n)
      ({ s with tree := { s.tree with nodes := nodes } }).publishTree.enumerate
  else if s.role = 2 && p == s.tree.upstream then
    let s := { s with tree := { s.tree with reached := false } }
    if s.tree.inTree then s.leaveTree else s
  else s

/-- A port's lanes after a state's work: of those that came so far, the ones that passed it (R290). -/
def workLanes (x : Port) (tx rx inverted : BitVec 4) (w : LaneWork) : Port :=
  { x with
    tx := x.tx &&& tx, rx := x.rx &&& rx, inverted := inverted
    numbers := (List.range 4).foldl (fun t l => match w.numbers.getD l none with | some n => tset none t l (some n.val) | none => t) x.numbers }

/-- Receive lanes with block lock, 64 consecutive blocks with valid sync headers, and a skew of at most 16 blocks (R290). -/
def lockedLanes (rx : BitVec 4) (w : LaneWork) : BitVec 4 :=
  BitVec.ofNat 4 (maskOf 4 (fun l => rx.getLsbD l && decide (64 ≤ w.headers.getD l 0) && decide (w.skew.getD l 0 ≤ 16)))

/-- SYMBOL_LOCK's work: of the locked lanes those are admitted that fit the mapping of the most lanes (R290, R292). -/
def symbolLanes (x : Port) (tx rx inverted : BitVec 4) (w : LaneWork) : Port :=
  let x := workLanes x tx rx inverted w
  let m := lockedLanes x.rx w
  { x with rx := fittingLanes x.numbers m, reversed := chooseReversed x.numbers m }

/-- Both directions have three lanes (R290). -/
def lanesEnough (x : Port) : Bool := decide (3 ≤ laneCount x.tx) && decide (3 ≤ laneCount x.rx)

/-- Credits on entering ACTIVE: the buffers of the peer, less the frames that will go again, which use those of their first transmission
(R282). -/
def creditsAfter (rest : List (BitVec 2048)) : Tab Nat :=
  creditsInit.map (fun e => (e.1, e.2 - rest.countP (fun f => frVc f.toNat == e.1)))

/-- The link enters ACTIVE anew after RECOVERY: what the peer has not delivered goes again from the stamp after its last; rate matching
goes on where the forwarded clock is still missing, and the peer is told again (R287, R298, R299). -/
def State.recovered (s : State) (p : Nat) : State :=
  let x := s.port p
  let last := BitVec.ofNat 16 (fld x.peer.toNat 48 16)
  let rest := x.replay.filter (fun f => !notAfter (BitVec.ofNat 16 (frStamp f.toNat)) last)
  let s := s.setPort p { x with
      replay := rest, resends := 0, nakSent := false, nakAt := none, credits := creditsAfter rest, admitted := x.tx, laneSince := []
      filler := x.filler && !x.fclkOk, fillerPending := x.filler && !x.fclkOk && x.fillerPending, oldestSince := s.now }
  let s := (s.toState p .active none).sendAgain p rest
  let s := if s.role == 2 && p == s.tree.upstream && s.forwarded && !x.fclkOk then s.sendPort p msgFillerOn 0 0 else s
  (s.modPort p (fun x => startNext x s.now)).linkUp p

/-- PORT_STATE_ADVANCE: a port completes its state's work (Table 13.5, R290 to R293). RECOVERY first has its lanes again, and then sends
its capability frame with them. -/
def execPortStateAdvance (p : Fin 4) (tx rx inverted : BitVec 4) (work : LaneWork) (s : State) : Host.Outcome State Fault Refusal :=
  let p := p.val
  let x := s.port p
  match x.st with
  | .detect =>
    if tx = 0 then .next s
    else .next ((s.setPort p { x with tx := tx, rx := 0xF, found := tx, foundRx := 0xF }).toState p .train (stateLimit .train))
  | .train =>
    let x := workLanes x tx rx inverted work
    .next ((s.setPort p { x with found := x.tx, foundRx := x.rx }).toState p .bitLock (stateLimit .bitLock))
  | .bitLock => .next ((s.setPort p (workLanes x tx rx inverted work)).toState p .symbolLock (stateLimit .symbolLock))
  | .symbolLock =>
    let x := symbolLanes x tx rx inverted work
    if !lanesEnough x then .next s
    else .next (((s.setPort p x).toState p .capability (stateLimit .capability)).sendCap p)
  | .capability =>
    if !(x.capSeen && x.capAcked) then .next s
    else
      let s := s.setPort p { x with
          stamp := 0, expected := 0, everActive := true, nakSent := false, nakAt := none, replay := [], resends := 0
          credits := creditsInit, fclkOk := true, admitted := x.tx, laneSince := [] }
      let s := s.toState p .active none
      .next ((s.modPort p (fun x => startNext x s.now)).linkUp p)
  | .recovery =>
    if !x.relocked then
      let y := symbolLanes { x with tx := x.found, rx := x.foundRx } tx rx inverted work
      if !lanesEnough y then .next s
      else
        let s := s.setPort p { y with relocked := true }
        let s := if y.tx = x.tx ∧ y.rx = x.rx then s else s.linkEvent p
        .next (s.sendCap p)
    else if !(x.capSeen && x.capAcked) then .next s
    else .next (s.recovered p)
  | _ => .next s

/-- PORT_STATE_TIMEOUT: the state's timeout takes the port DOWN (Table 13.5, R288). -/
def execPortStateTimeout (p : Fin 4) (s : State) : Host.Outcome State Fault Refusal :=
  match (s.port p.val).due with
  | none => .next s
  | some t =>
    .next ((s.advance t).portDown p.val true)

/-- COU_CTRL.ENABLE written 0: the port goes DOWN; TEST is left only by TEST_EXIT. -/
def execCouCtrlEnableClear (p : Fin 4) (s : State) : Host.Outcome State Fault Refusal :=
  let s := s.setReg (aCou p.val 0) (putFld (s.reg (aCou p.val 0)) 0 1 0)
  let x := s.port p.val
  if x.st == .test then .next s
  else if x.st == .down then .next (s.modPort p.val (fun x => { x with retryDue := none }))
  else
    let s := s.portDown p.val false
    .next (if x.st == .active then s.linkGone p.val else s)

end Sys2Proof.Machine
end

