-- ==== Sys2Proof/Machine/Replay.lean ====
section
/-! DEFINITION. Courier traffic that can end in RECOVERY (chapter 13): resends, received frames, failing lanes, markers, and the return
of the forwarded clock. -/

namespace Sys2Proof.Machine

/-- The port enters RECOVERY from ACTIVE (R287). The link has left ACTIVE, with what that means to the tree (R311, R328, R329). -/
def State.enterRecovery (s : State) (p : Nat) : State :=
  if (s.port p).st != .active then s else (s.beginRecovery p).linkGone p

/-! ### Replay (R286, R287) -/

/-- Every unacknowledged frame is resent, oldest first; after four resends of the same oldest frame the direction enters RECOVERY
instead (R286, R287). -/
def State.resend (s : State) (p : Nat) (byNak : Bool) : State :=
  let x := s.port p
  if x.st != .active || x.replay.isEmpty then s
  else if 4 ≤ x.resends then s.enterRecovery p
  else
    let first := BitVec.ofNat 16 (match x.replay with | f :: _ => frStamp f.toNat | [] => 0)
    let s := s.setPort p { x with
      resends := x.resends + 1, oldestSince := s.now, nakAt := if byNak then some (s.now, first) else x.nakAt }
    (s.rcAdd (aCou p 0x10) 1).sendAgain p x.replay

/-- A negative acknowledgement that names the last stamp delivered. It is ignored where it names a frame before the last one
acknowledged (DEDUCED, notes/assumptions/29.md), or while an earlier resend has not passed the stamp (R286). -/
def State.naked (s : State) (p : Nat) (stamp : BitVec 16) : State :=
  let x := s.port p
  match x.replay.head? with
  | none => s
  | some f =>
    if !notAfter (BitVec.ofNat 16 (frStamp f.toNat) - 1) stamp || s.resendShort p stamp then s else s.resend p true

/-- LINK_CTL NAK arrives. -/
def execNak (p : Fin 4) (stamp : Checked (BitVec 16)) (s : State) : Host.Outcome State Fault Refusal :=
  if ctlTaken 2 stamp.val.toNat 0 stamp.check then .next (s.naked p.val stamp.val) else .next s

/-- REPLAY_TIMEOUT: the oldest unacknowledged frame has waited 2 µs (R286). -/
def execReplayTimeout (p : Fin 4) (s : State) : Host.Outcome State Fault Refusal :=
  let x := s.port p.val
  if x.st != .active || x.replay.isEmpty then .next s
  else .next ((s.advance (x.oldestSince + 2 * tuPerUs)).resend p.val false)

/-! ### Receiving (R285) -/

/-- The acknowledgement and credit fields of a good frame. -/
def State.rideAlong (s : State) (p f : Nat) : State :=
  let s := if frAckValid f then
      (if frNak f then s.naked p (BitVec.ofNat 16 (frAck f)) else s.acked p (BitVec.ofNat 16 (frAck f)))
    else s
  if 1 ≤ frCredits f ∧ frCredits f ≤ 64 then s.credited p (frCreditVc f) (frCredits f) else s

/-- FRAME_RECEIVE: a frame ends at the receiver of an ACTIVE port. One that is accepted is acknowledged, waits in the buffer of its
virtual channel and goes to its consumer (R282, R285). `laneFault` tells that an active lane has shown an invalid sync header within its
last 64 blocks. -/
def execFrameReceive (p : Fin 4) (frame : BitVec 2048) (laneFault : Bool) (s : State) : Host.Outcome State Fault Refusal :=
  let f := frame.toNat
  let p := p.val
  if (s.port p).st != .active then .next s
  else
    let s := s.repeatAsks p
    if !frankGood f then .next ((s.rcAddHalf (aCou p 0x0C) 0).discard p laneFault)
    else
      let s := s.rideAlong p f
      let x := s.port p
      let st := BitVec.ofNat 16 (frStamp f)
      if st = x.expected then
        let s := s.setPort p { x with
          expected := x.expected + 1, nakSent := false, rxq := tmod [] x.rxq (frVc f) (· ++ [frame]) }
        .next ((s.sendCtl p 1 st.toNat 0).drainRx p)
      else if notAfter st (x.expected - 1) then .next (s.sendCtl p 1 (x.expected - 1).toNat 0)
      else .next (s.discard p laneFault)

/-! ### Lanes, markers and the forwarded clock (R287, R291, R292, R296 to R301) -/

/-- Another active lane was declared failed within the marker period before now (R299). -/
def failedBeside (x : Port) (lane now : Nat) : Bool :=
  (bitsOf 4 x.rx.toNat).any (fun l => l != lane
    && match tget none x.failedAt l with | some u => decide (now < u + markerSpacing * blockTime) | none => false)

/-- LANE_FAILURE: a receive lane shows invalid sync headers within 64 blocks, or loses block lock. With 16 of them, or without lock, an
active lane is declared failed: it is asked to be dropped; the second within a marker period, or one of three, leads to RECOVERY (R299,
R300). Without lock a dropped lane's 10 s start again (R301). -/
def execLaneFailure (p : Fin 4) (lane : Fin 4) (t : Nat) (seen : LaneFault) (s : State) : Host.Outcome State Fault Refusal :=
  let x := s.port p.val
  let s := s.rcAdd (aCou p.val (0x18 + 4 * lane.val)) seen.headers
  if x.st != .active || !(decide (16 ≤ seen.headers) || seen.lockLost) then .next s
  else
    let s := s.advance t
    if !x.rx.getLsbD lane.val then
      .next (if seen.lockLost && (tget none x.laneSince lane.val).isSome then
          s.modPort p.val (fun x => { x with laneSince := tset none x.laneSince lane.val (some s.now) })
        else s)
    else if laneCount x.rx < 4 || failedBeside x lane.val s.now then .next (s.enterRecovery p.val)
    else .next ((s.modPort p.val (fun x => { x with failedAt := tset none x.failedAt lane.val (some s.now) })).askLane p.val lane.val false)

/-- Markers are sent from SYMBOL_LOCK on. -/
def sendsMarkers : PortState → Bool
  | .symbolLock => true
  | .capability => true
  | .active => true
  | .recovery => true
  | _ => false

/-- MARKER_SEND: the transmitter's marker begins: the changes that are due apply; a drop resends everything unacknowledged and puts
PRBS31 on the dropped lane; rate matching begins where it is pending (R276, R298, R300, R301). -/
def execMarkerSend (p : Fin 4) (t : Nat) (s : State) : Host.Outcome State Fault Refusal :=
  let p := p.val
  let x := s.port p
  if !sendsMarkers x.st then .next s
  else
    let s := (s.advance t).repeatAsks p
    let due := x.changes.filter (fun c => decide (c.2.2 ≤ t))
    let s := s.modPort p (fun x => { x with
        changes := x.changes.filter (fun c => !decide (c.2.2 ≤ t)), markers := (x.markers + 1) % 65536
        filler := x.filler || x.fillerPending, fillerPending := false })
    let s := s.putMarkers p (changeMask x.tx due) (s.sendsSkip p)
    let drops := due.filter (fun c => !c.2.1)
    let s := drops.foldl (fun (s : State) c => (s.noteDrop p c.1 0).emit (.pattern p (2 ^ c.1) 3)) s
    let s := if due.isEmpty then s else s.linkEvent p
    .next (if drops.isEmpty then s else s.resend p false)

/-- A lane number is read; the mapping follows from the numbers (R292). -/
def noteNumber (x : Port) (lanes : BitVec 4) (lane number : Nat) : Port :=
  let numbers := tset none x.numbers lane (some number)
  { x with numbers := numbers, reversed := chooseReversed numbers lanes }

/-- The receive lanes become those of a marker's mask: the requests it answers end, a dropped lane is tested from now (R300, R301). -/
def takeMask (x : Port) (mask : BitVec 4) (now : Nat) : Port :=
  let gone := bitsOf 4 (x.rx &&& ~~~mask).toNat
  let come := bitsOf 4 (mask &&& ~~~x.rx).toNat
  { x with
    rx := mask, asked := x.asked.filter (fun a => a.2.1 != mask.getLsbD a.1)
    failedAt := gone.foldl (fun t i => tset none t i none) x.failedAt
    laneSince := come.foldl (fun t i => tset none t i none) (gone.foldl (fun t i => tset none t i (some now)) x.laneSince)
    checkAt := gone.foldl (fun t i => tset 0 t i now) x.checkAt }

/-- A marker that agrees with the lane and the alignment reaches an ACTIVE port: its mask becomes the receive lanes, and with it, where
rates are matched, comes a stripe of SKIP blocks (R296, R300). -/
def State.takeMarker (s : State) (p lane v : Nat) (fill : Int) : State :=
  let x := s.port p
  let mask := mapMask x.reversed (BitVec.ofNat 4 (markerMask v))
  let move := skipMove fill
  let s := if s.sendsSkip p && (bitsOf 4 mask.toNat).head? == some lane && move != .keep then
      s.emit (.skipMoved p (if move = .delete then -1 else 1))
    else s
  let gone := bitsOf 4 (x.rx &&& ~~~mask).toNat
  let s := s.setPort p (takeMask x mask s.now)
  if mask = x.rx then s
  else (gone.foldl (fun (s : State) i => s.noteDrop p i 1) s).linkEvent p

/-- MARKER_RECEIVE: what a receive lane shows where a marker is due: polarity, lane numbers, frame alignment, the active-lane mask (R279,
R287, R291, R292, R300). `counted` is the place in its frame that the receiver has counted, `fill` its elastic buffer's. -/
def execMarkerReceive (p : Fin 4) (lane : Fin 4) (content : BitVec 64) (counted : Fin 32) (fill : Int) (s : State) :
    Host.Outcome State Fault Refusal :=
  let p := p.val
  let s := (s.repeatAsks p).drainRx p
  let inv := !isMarker content.toNat && isMarker (invertContent content.toNat)
  let v := if inv then invertContent content.toNat else content.toNat
  if !isMarker v then .next s
  else
    let s := if inv then s.modPort p (fun x => { x with inverted := x.inverted ^^^ (1 <<< lane.val) }) else s
    let x := s.port p
    match x.st with
    | .symbolLock => .next (s.setPort p (noteNumber x x.rx lane.val (markerLane v)))
    | .recovery => .next (if x.relocked then s else s.setPort p (noteNumber x x.foundRx lane.val (markerLane v)))
    | .test => .next (s.setPort p (noteNumber x 0xF lane.val (markerLane v)))
    | .active =>
      if markerLane v != mapLane x.reversed lane.val || markerOffset v != counted.val then .next (s.enterRecovery p)
      else .next (s.takeMarker p lane.val v fill)
    | _ => .next s

/-- CAPABILITY: the peer's capability frame arrives. In ACTIVE it tells that the peer is in RECOVERY, and this side follows (R287,
R293). -/
def execCapability (p : Fin 4) (_version role clock : Nat) (deviceId : BitVec 16) (lanes : BitVec 8) (tbWarm : Bool)
    (lastDelivered : BitVec 16) (_commitEpoch : W32) (s : State) : Host.Outcome State Fault Refusal :=
  let peer := BitVec.ofNat 64 (role % 256 + 2 ^ 8 * (clock % 256) + 2 ^ 16 * deviceId.toNat + 2 ^ 32 * lanes.toNat + 2 ^ 40 * b2n tbWarm
    + 2 ^ 48 * lastDelivered.toNat)
  match (s.port p.val).st with
  | .capability => .next (s.takeCapability p.val peer tbWarm)
  | .recovery => .next (s.takeCapability p.val peer tbWarm)
  | .active => .next ((s.enterRecovery p.val).takeCapability p.val peer tbWarm)
  | _ => .next s

/-- ELASTIC_BUFFER_OVERFLOW: more than 8 blocks of phase wander lead to RECOVERY (R297). -/
def execElasticBufferOverflow (p : Fin 4) (s : State) : Host.Outcome State Fault Refusal := .next (s.enterRecovery p.val)

/-- FCLK_RESTORED: FCLK_IN has been present for 1 s: the upstream link returns to forwarded operation through RECOVERY (R298). -/
def execFclkRestored (s : State) : Host.Outcome State Fault Refusal :=
  let u := s.tree.upstream
  if s.role != 2 || (s.port u).fclkOk then .next s
  else .next ((s.modPort u (fun x => { x with fclkOk := true })).enterRecovery u)

/-- COU_CMD.RETRAIN. -/
def execCouCmdRetrain (p : Fin 4) (s : State) : Host.Outcome State Fault Refusal :=
  .next (s.enterRecovery p.val)

end Sys2Proof.Machine
end

