-- ==== Sys2Proof/Machine/Boot.lean ====
section
/-! DEFINITION. Resets, boot, the NOR commands, images, attestation, OTP changes and the thermal trips (chapter 20, R424, R476, R477,
R494). -/

namespace Sys2Proof.Machine

/-! ### Resets (R430, R431, R455, R477) -/

/-- Every output goes to its reset state: DE and DH deasserted, trigger and event lines released (Table 22.9). -/
def State.outputsOff (s : State) : State :=
  let s := (List.range 128).foldl (fun (s : State) c => s.forceIdle c true s.now) s
  (List.range 16).foldl (fun (s : State) l => if (tget none s.trg.active l).isSome then s.emit (.line l false s.now) else s) s

/-- What a channel keeps over a reset: the level at its comparators, which is the outside world's. -/
def keptChan (x : Chan) : Chan := { Chan.reset with pins := (x.pins.take 1).map (fun p => { p with t := 0 }) }

/-- Every volatile state cleared. OTP, the flash, the levels of input pins, the temperature and the host's memory are not the device's
volatile state; nor are the DIMMs' contents (R430); the queue of commands and the model's own trace go on. -/
def State.cleared (s : State) : State :=
  let s := s.outputsOff
  let z := State.reset
  { z with
    pending := s.pending
    host := s.host
    freeCount := s.freeCount
    out := s.out
    chans := s.chans.foldl (fun (t : Tab Chan) e => tset Chan.reset t e.1 (keptChan e.2)) []
    groups := s.groups.foldl (fun (t : Tab Group) e => tset Group.reset t e.1 { Group.reset with alertLow := e.2.alertLow }) []
    trg := { z.trg with level := s.trg.level }
    mem := { z.mem with lines := s.mem.lines, poisoned := s.mem.poisoned }
    cal := { z.cal with log := s.cal.log }
    boot := { z.boot with
      swing := s.boot.swing, straps := s.boot.straps, strapInvalid := s.boot.strapInvalid
      ocxo := s.boot.ocxo, therm := s.boot.therm, thermTemp := s.boot.thermTemp
      programmed := s.boot.programmed, revoked := s.boot.revoked, roots := s.boot.roots, rollback := s.boot.rollback
      locked := s.boot.locked, nor := s.boot.nor, norErased := s.boot.norErased } }

/-- The straps are invalid (R431). -/
def strapsBad (v : BitVec 8) : Bool :=
  let n := v.toNat
  fld n 0 2 == 3 || fld n 2 2 == 3 || (fld n 2 2 == 2 && fld n 0 2 != 2) || fld n 6 2 != 0

/-- COU_MODE.FORWARDED resets to its strap on a Postmaster (Table 20.2). -/
def State.couModeReset (s : State) : State :=
  if s.role = 1 ∧ s.boot.straps.getLsbD 4 then s.setReg aCouMode 1 else s

/-- The output swing that RSWING gives, in µVppd (R480). -/
def swingOf (ohms : Nat) : Nat := if ohms = 0 then 800000 else min 800000 (max 200000 (800000000 / ohms))

/-- POWER_ON_RESET: POR_N rises: volatile state is clear, the straps and RSWING are sampled, boot is at stage 0 (R430, R431). -/
def execPowerOnReset (straps : BitVec 8) (rswing : Nat) (s : State) : Host.Outcome State Fault Refusal :=
  let s := s.cleared
  let s := { s with boot := { s.boot with straps := straps, strapInvalid := strapsBad straps, swing := swingOf rswing } }
  .next s.couModeReset

/-- POR_N is low: volatile state is cleared and nothing boots until it rises. -/
def State.holdReset (s : State) : State :=
  let s := s.cleared
  { s with boot := { s.boot with porLow := true } }

/-- POR_N_LOW (R477). -/
def execPorNLow (s : State) : Host.Outcome State Fault Refusal := .next s.holdReset

/-- SUPPLY_BROWNOUT: as if POR_N were low (R476). -/
def execSupplyBrownout (s : State) : Host.Outcome State Fault Refusal := .next s.holdReset

/-- SYS_RESET.DEVICE: with the key, as power-on but for the PCIe link, the PF's configuration space and the strap sample (R430, R457).
A thermal shutdown holds until POR_N, so it is no way out of one. -/
def execSysResetDevice (key : BitVec 16) (bit : Bool) (s : State) : Host.Outcome State Fault Refusal :=
  if key ≠ 0xDE57 || !bit || s.boot.thermLatched || s.boot.porLow then .next s
  else
    let h := s.hif
    let b := s.boot
    let now := s.now
    let s := s.cleared
    let s := { s with
      hif := { s.hif with rate := h.rate, width := h.width, flit := h.flit, vfEnabled := h.vfEnabled, numVfs := h.numVfs }
      boot := { s.boot with smbStatus := b.smbStatus, alertLow := b.alertLow, smbFrom := b.smbFrom - now } }
    .next s.couModeReset.noteStatus

/-! ### Boot stages (R432 to R435) -/

/-- BOOT of the straps: 0 NOR, 1 host, 2 Courier; NOR where the straps are invalid. -/
def State.bootMode (s : State) : Nat := if s.boot.strapInvalid then 0 else fld s.boot.straps.toNat 2 2

def State.safeBoot (s : State) : Bool := s.boot.straps.getLsbD 5

def State.setStage (s : State) (n : Nat) : State := State.noteStatus { s with boot := { s.boot with stage := n } }

/-- A bank image goes into a bank: a full bank whole, a customer part with words 0 to 6,143 copied from the active bank (R412). -/
def State.loadBank (s : State) (bank : Nat) (rd : ImageReader) : State :=
  let c := s.clerk
  let act := b2n c.active
  let n := sgPayload rd / 16
  let word := fun i => if i < n then BitVec.ofNat 128 (rd (832 + 16 * i) 16) else 0#128
  let full := sgKind rd == 0
  let content := fun i => if full then word i else if i < 6144 then tget 0 c.words (act * 8192 + i) else word (i - 6144)
  let others := c.words.filter (fun e => e.1 / 8192 != bank)
  let roots := 2 ^ sgRoot rd + (if full then 0 else fld (tget 0 c.roots act) 0 2)
  { s with clerk := { c with
    words := (List.range 8192).foldl (fun t i => tset 0 t (bank * 8192 + i) (content i)) others
    meas := tset none c.meas bank (some (sgHash rd)), version := tset 0 c.version bank (sgVersion rd)
    roots := tset 0 c.roots bank roots } }

/-- The customer region of a bank is zero (SAFE_BOOT). -/
def State.zeroCustomer (s : State) (bank : Nat) : State :=
  { s with clerk := { s.clerk with words := s.clerk.words.filter (fun e => !(e.1 / 8192 == bank && decide (6144 ≤ e.1 % 8192))) } }

/-- A kind's image for the boot from the flash: the current slot's, else the other's with FALLBACK (R438). -/
def State.bootSlot (s : State) (kind : Nat) : State × Option (ImageReader × Nat) :=
  let cur := s.slotOf kind
  match s.slotGood kind cur with
  | some rd => (s, some (rd, (s.slotStart kind cur).1))
  | none =>
    let s := s.fault 89 (if kind = 0 then 0 else kind + 1)
    match s.slotGood kind (1 - cur) with
    | some rd =>
      ({ s with boot := { s.boot with fallback := s.boot.fallback ||| (1#3 <<< kind) } }, some (rd, (s.slotStart kind (1 - cur)).1))
    | none => (s, none)

/-- The slots whose image verifies. -/
def State.readSlots (s : State) : BitVec 6 :=
  BitVec.ofNat 6 (maskOf 6 (fun i => (s.slotGood (i / 2) (i % 2)).isSome))

/-- The calibration log loads: the newest valid record comes into force; with none every group is CAL_OVERDUE at nominal trims
(R378). -/
def State.loadLog (s : State) : State :=
  match newestRecord s.cal.log with
  | some r =>
    let s := s.loadRecord r
    let bad := s.cal.badBlocks
    { s with cal := { s.cal with slot := if r.slot % 2 = 0 then r.slot + 1 else 2 * nextBlock bad (r.slot / 2) } }
  | none =>
    let s := { s with cal := { s.cal with noRecord := true } }
    (List.range 16).foldl (fun (s : State) g => (s.modGroup g (fun x => { x with overdue := true })).calEvent g false) s

/-- Boot continuation, to the point where memory training runs (R432): the CSP image, the calibration log, the time unit, training. The
images of the flash count with BOOT 0; else those that the host or the Postmaster has delivered. -/
def State.continueBoot (s : State) : State :=
  let s := s.setStage 4
  let s := if s.bootMode = 0 && s.csp.st == .off then
      (match s.bootSlot 1 with
       | (s, some (rd, a)) => s.loadCsp (stagedOf rd a)
       | (s, none) => s)
    else s
  let s := s.loadLog
  let s := if s.role = 2 || s.ptu.started then s
    else s.setPtu { s.ptu with started := true, anchor := 0, anchorAt := s.now, st := .locked }
  let s := if s.bootMode = 0 && s.boot.cfgNext.isNone then
      (match s.bootSlot 2 with
       | (s, some (rd, a)) => { s with boot := { s.boot with cfgNext := some (stagedOf rd a) } }
       | (s, none) => s)
    else s
  { s with mem := { s.mem with state := 1 } }

/-- The valid records of the calibration log and the blocks that the newest of them maps out: those that the device wrote, and with none
those that the part was delivered with (R376, R378, R430). -/
def State.logFound (s : State) (nor : BootRead) : List CalRecord × BitVec 16 :=
  match newestRecord s.cal.log with
  | some r => (s.cal.log, BitVec.ofNat 16 r.bad)
  | none => (nor.calLog, nor.calBad)

/-- ROOT_PLL_LOCK: a PLL that lost lock locks again; at stage 0, stages 1 to 3, and stage 4 where the Clerk image is at hand (R432, R434, R437, R438). -/
def execRootPllLock (nor : BootRead) (s : State) : Host.Outcome State Fault Refusal :=
  if s.boot.porLow || s.boot.thermLatched then .next s
  else if s.boot.stage ≠ 0 then
    .next (if s.boot.refLock then s else { s with boot := { s.boot with refLock := true }, ptu := { s.ptu with phase := 0 } })
  else
    let s := { s with boot := { s.boot with refLock := true } }
    if !nor.answers then .next ((s.setStage 6).fault 88 0)
    else
      let s := { s with
        boot := { s.boot with norLog2 := nor.log2.val, quad := nor.quad }
        cal := { s.cal with log := (s.logFound nor).1, badBlocks := (s.logFound nor).2 } }
      let dir := s.directory
      let s := { s with boot := { s.boot with current := BitVec.ofNat 3 ((dir.map (fun (d : Nat × Nat × Nat) => d.2.1)).getD 0) } }
      let s := { s with boot := { s.boot with slotOk := s.readSlots } }
      if s.bootMode = 1 then .next (s.setStage 6)
      else if s.bootMode = 2 then .next (s.setStage 3)
      else
        match s.bootSlot 0 with
        | (s, some (rd, _)) =>
          let s := s.loadBank 0 rd
          .next (if s.safeBoot then s.zeroCustomer 0 else s).continueBoot
        | (s, none) => .next (s.setStage 6)

/-- BOOT_STAGE_TIMEOUT: the stage under way has failed or run beyond its limit (Table 20.3). -/
def execBootStageTimeout (otpGood : Bool) (s : State) : Host.Outcome State Fault Refusal :=
  if s.boot.porLow then .next s
  else if s.boot.stage ≤ 1 then .next ((s.setStage 15).fault (if otpGood then 77 else 90) 0)
  else if s.boot.stage = 2 then .next ((s.setStage 6).fault 88 0)
  else .next s

/-- The items of the default configuration image that is to be applied. -/
def imageItems (sha : BitVec 256) : List (Nat × Nat) :=
  ((Config.imageItems sha).filter (fun it => decide (1 ≤ it.1) && decide (it.1 ≤ 11))).map (fun it => (itemKey it.1 it.2.1, it.2.2))

/-- The default configuration is applied as a commit of the vector-boundary form under the conservative budget, or refused (R435). -/
def State.applyDefault (s : State) : State :=
  match s.boot.cfgNext with
  | none => s
  | some im =>
    if s.safeBoot then s
    else
      let items := putItems [] (imageItems im.sha)
      let d := { s with cfg := { s.cfg with drafts := tset [] s.cfg.drafts 0 items } }
      if !(d.violations 0 0).isEmpty then { s with boot := { s.boot with configRefused := true } }
      else
        let p : PendingCommit := {
            task := none, form := 0, mask := 2 ^ 32 - 1, site := 0, entry := 0, instant := 0, rs := 0, budget := 0, items := items
            prepDue := s.now, prepared := some s.now, refDone := true, moment := s.now, fills := [], lapsed := false, anyApplied := false, system := false, old := s.cv }
        let s := if items.isEmpty then s else d.applyItems p (fun _ => true) s.now
        { s with boot := { s.boot with cfgMeas := some im.sha, cfgVersion := im.version, cfgRoot := im.root } }

/-- The end of boot continuation: the default configuration, the internal phases that R378 calls for, READY. -/
def State.finishBoot (s : State) : State :=
  let s := s.applyDefault
  if s.cal.noRecord && (s.reg aCalCtrl).testBit 3 then
    let s := (List.range 16).foldl (fun (s : State) g => s.wantInternal g) s
    { s with boot := { s.boot with calWait := true } }
  else s.setStage 5

/-- The passing ranks of a channel, ascending. -/
def passingRanks (n : Nat) (failed : BitVec 4) : List Nat := (List.range n).filter (fun r => !failed.getLsbD r)

/-- A DIMM that Table 15.1 supports: registered, x4, two ranks, 16 or 32 Gb (R335). -/
def dimmFits (d : DimmSpd) : Bool := d.registered && d.width == 4 && d.ranks == 2 && (d.density == 16 || d.density == 32)

/-- The DIMMs of a channel. -/
def chanDimms (x : ChanFound) : List DimmSpd := [x.first, x.second].filterMap id

/-- The first channel that breaks the population rules: empty, an unsupported DIMM, another density or another number of DIMMs than
channel 0 has (R335). -/
def badPopulation (found : List ChanFound) : Option Nat :=
  let first := (found.head?.map chanDimms).getD []
  (found.map chanDimms).findIdx? (fun ds =>
    ds.isEmpty || !ds.all dimmFits || ds.length != first.length || ds.any (fun d => first.any (fun e => d.density != e.density)))

/-- TRAINING_COMPLETE: memory is TRAINED, or stays untrained where the population breaks R335 or some channel has no rank left; boot
continuation goes on (R335 to R339, R348, R435). -/
def execTrainingComplete (c0 c1 c2 c3 : ChanFound) (s : State) : Host.Outcome State Fault Refusal :=
  if s.boot.stage ≠ 4 || s.mem.state != 1 then .next s
  else
    match badPopulation [c0, c1, c2, c3] with
    | some c => .next (({ s with mem := { s.mem with state := 0 } }).fault 45 c).finishBoot
    | none =>
      let dimms := (chanDimms c0).length
      let failed : Nat → BitVec 4 := fun c => ([c0, c1, c2, c3].getD c c0).failed
      let ranks := 2 * dimms
      let act := if dimms = 1 then 1 else 3
      let good : Nat → List Nat := fun c => passingRanks ranks (failed c)
      let live := (List.range 4).foldl (fun m c => min m (good c).length) act
      let s := { s with mem := { s.mem with dpc2 := dimms == 2, d32 := (chanDimms c0).any (fun d => d.density == 32) } }
      let s := (List.range 4).foldl (fun (s : State) c =>
        let bad := (List.range ranks).filter (fun r => (failed c).getLsbD r)
        let s := bad.foldl (fun (s : State) r => s.setRank c r { s.rank c r with retired := true }) s
        let s := ((good c).mapIdx (fun k r => (k, r))).foldl (fun (s : State) kr =>
          { s with mem := { s.mem with rankMap := tset kr.1 s.mem.rankMap (c * 4 + kr.1) kr.2 } }) s
        if act < (good c).length then
          { s with mem := { s.mem with spare := tset none s.mem.spare c (good c).getLast? } }
        else s.fault 44 c) s
      let s := { s with mem := { s.mem with capacity := live * s.rankSlice, state := if live = 0 then 0 else 2 } }
      let s := if live = 0 then s else s.setReg aMcCtrl (putFld (s.reg aMcCtrl) 0 1 1)
      .next s.finishBoot

/-! ### The NOR commands (R436, R445) -/

/-- A byte of a region as NVM_READ returns it: the calibration log's slots hold its records (R376). -/
def State.regionByte (s : State) (region off : Nat) : Byte :=
  let a := (s.norRegion region).1 + off
  if region = 8 then
    match s.cal.log.find? (fun r => r.slot == off / 32768) with
    | some r => (recordBytes r).getD (off % 32768) 0xFF#8
    | none => s.norByte a
  else s.norByte a

/-- NVM_READ at its engine. -/
def engineNvmRead (region offset bytes addr : Nat) (t : Task) (s : State) : State :=
  if (s.norRegion region).2 < offset + bytes then s.complete t 3 0
  else
    let data := (List.range bytes).map (fun i => s.regionByte region (offset + i))
    ({ s with host := writeBytes s.host addr data }).complete t 0 bytes

/-- NVM_READ. -/
def execNvmRead (h : Hdr) (region offset bytes addr : Nat) (s : State) : Host.Outcome State Fault Refusal :=
  .next (serve h (.nvmRead region offset bytes addr) (engineNvmRead region offset bytes addr) s)

/-- NVM_WRITE is not permitted to a region (Table 20.4). -/
def State.norProtected (s : State) (region : Nat) : Bool :=
  decide (region < 2) || region == 8 || (decide (region ≤ 7) && s.slotOf ((region - 2) / 2) == region % 2)

/-- NVM_WRITE at its engine: every 64 KB block it touches is erased, the bytes are programmed and read back. What the flash answers to
the read-back is a free value (notes/assumptions/31.md). -/
def engineNvmWrite (region offset bytes addr : Nat) (t : Task) (s : State) : State :=
  let (start, size) := s.norRegion region
  if size < offset + bytes then s.complete t 3 0
  else if s.norProtected region then s.complete t 4 0
  else
    let a := start + offset
    let first := a / 65536
    let blocks := if bytes = 0 then [] else (List.range ((a + bytes - 1) / 65536 - first + 1)).map (first + ·)
    let bad := s.free 31 % 2 == 1
    let s := (blocks.foldl (fun (s : State) b => s.norErase b) s).norProgram a (readBytes s.host addr bytes)
    let s := s.drawn
    if bad then (s.fault 87 first).complete t 6 0 else s.complete t 0 bytes

/-- NVM_WRITE. -/
def execNvmWrite (h : Hdr) (region offset bytes addr : Nat) (s : State) : Host.Outcome State Fault Refusal :=
  .next (serve h (.nvmWrite region offset bytes addr) (engineNvmWrite region offset bytes addr) s)

/-! ### Images (R412, R413, R438 to R441) -/

/-- An activation of the kind is in service and not applied. -/
def State.imageBusy (s : State) (kind : Nat) : Bool :=
  if kind = 0 then s.clerk.swapPending.isSome else if kind = 1 then s.csp.activatePending.isSome else false

/-- IMAGE_STAGE once no activation of its kind is in its way (R439 to R441). -/
def State.stageImage (s : State) (t : Task) (kind bytes addr : Nat) : State :=
  let rd := hostImage s.host addr
  if bytes < 832 || sgBytes rd != bytes then s.complete t 3 0
  else
    let inactive := 1 - b2n s.clerk.active
    let good := s.verifies rd kind
    let s := { s with boot := { s.boot with staged := tset none s.boot.staged kind (if good then some (stagedOf rd addr) else none) } }
    if good then
      let s := if kind = 0 then
          let s := s.loadBank inactive rd
          { s with clerk := { s.clerk with inactive := .verified } }
        else s
      s.complete t 0 (shaHead (sgHash rd))
    else
      let s := if kind = 0 then { s with clerk := { s.clerk with
          inactive := .empty, meas := tset none s.clerk.meas inactive none, version := tset 0 s.clerk.version inactive 0 } } else s
      (s.imageRefused rd).complete t 13 0

/-- The banks exchange roles; the old active bank stays VERIFIED, and a bad block's hold on starts ends (R401, R413). -/
def State.exchangeBanks (s : State) : State :=
  { s with clerk := { s.clerk with active := !s.clerk.active, inactive := .verified, swapPending := none, badBlocks := [] } }

/-- Measurement of the active bank. -/
def State.clerkMeas (s : State) : Option (BitVec 256) := tget none s.clerk.meas (b2n s.clerk.active)

/-- SEC_VERSION of the inactive bank. -/
def State.inactiveVersion (s : State) : Nat := tget 0 s.clerk.version (1 - b2n s.clerk.active)

/-- An activation's new bank is in force: the directory follows, the task completes. -/
def State.bankActivated (s : State) (id : Nat) : State :=
  let sha := s.clerkMeas.getD 0
  (s.noteActivated 0 sha).completeId id 0 (shaHead sha)

/-- A CSP activation applies (R227, R438). -/
def State.cspActivated (s : State) (id : Nat) (im : StagedImage) : State :=
  ((s.loadCsp im).noteActivated 1 im.sha).completeId id 0 (shaHead im.sha)

/-- The second reading of a staged image gives what the first gave (R440). -/
def State.stillStaged (s : State) (im : StagedImage) : Bool := sha256Num (readBytes s.host im.addr im.bytes) == im.sha

/-- IMAGE_ACTIVATE once no activation of its kind is in its way. In LIMITED the bank takes over at once and stage 4 starts (R434). -/
def State.activateImage (s : State) (t : Task) (kind : Nat) : State :=
  match tget none s.boot.staged kind with
  | none => s.complete t 4 0
  | some im =>
    if kind = 0 then
      if s.clerk.inactive != .verified then s.complete t 4 0
      else if s.inactiveVersion < s.boot.rollback then s.complete t 13 0
      else if s.boot.stage = 6 then
        let s := s.exchangeBanks.bankActivated t.id
        (if s.safeBoot then s.zeroCustomer (b2n s.clerk.active) else s).continueBoot
      else { s with clerk := { s.clerk with
          swapPending := some (t.id, s.now + fld (s.reg aSwapTimeout) 0 16 * tuPerMs)
          reqAt := if s.clerk.running.isSome then some (s.clerk.reqAt.getD s.now) else none } }
    else if !s.stillStaged im then s.complete t 13 0
    else if kind = 1 then
      if s.csp.st == .running then { s with csp := { s.csp with activatePending := some t.id } } else s.cspActivated t.id im
    else
      let s := if s.boot.stage = 5 then s else { s with boot := { s.boot with cfgNext := some im } }
      (s.noteActivated 2 im.sha).complete t 0 (shaHead im.sha)

/-- An image task goes on, unless an activation of its kind is under way; only an IMAGE_STAGE of a bank is refused then (R412, R440). -/
def State.imageTask (s : State) (t : Task) : State :=
  match t.op with
  | .imageStage kind bytes addr =>
    if s.imageBusy kind then (if kind = 0 then s.complete t 4 0 else s) else s.stageImage t kind bytes addr
  | .imageActivate kind => if s.imageBusy kind then s else s.activateImage t kind
  | _ => s

/-- The image kind of an image operation. -/
def imageKind : Op → Option Nat
  | .imageStage kind _ _ => some kind
  | .imageActivate kind => some kind
  | _ => none

/-- The image tasks of a kind that waited for an activation's end go on, in the order they were fetched. -/
def State.imageWaiters (s : State) (kind : Nat) : State :=
  (s.so.tasks.filter (fun t => t.st == .inService && imageKind t.op == some kind)).foldl (fun (s : State) t => s.imageTask t) s

/-- IMAGE_STAGE. -/
def execImageStage (h : Hdr) (kind bytes addr : Nat) (s : State) : Host.Outcome State Fault Refusal :=
  .next (serve h (.imageStage kind bytes addr) (fun t s => s.imageTask t) s)

/-- IMAGE_ACTIVATE. -/
def execImageActivate (h : Hdr) (kind : Nat) (s : State) : Host.Outcome State Fault Refusal :=
  .next (serve h (.imageActivate kind) (fun t s => s.imageTask t) s)

/-- CSP_ACTIVATION_APPLY: a pending activation applies once the CSP is not RUNNING (R227). -/
def execCspActivationApply (s : State) : Host.Outcome State Fault Refusal :=
  match s.csp.activatePending, tget none s.boot.staged 1 with
  | some id, some im => if s.csp.st == .running then .next s else .next ((s.cspActivated id im).imageWaiters 1)
  | _, _ => .next s

/-- A Branch takes an image that the Postmaster sent and that verifies: a Clerk bank starts stage 4, a CSP image comes into force, a
configuration waits for continuation (R434). -/
def State.takeBootImage (s : State) (kind : Nat) (rd : ImageReader) : State :=
  if kind = 0 then
    let s := s.loadBank 0 rd
    (if s.safeBoot then s.zeroCustomer 0 else s).continueBoot
  else if kind = 1 then s.loadCsp (stagedOf rd 0)
  else { s with boot := { s.boot with cfgNext := some (stagedOf rd 0) } }

/-- What the Postmaster does with a Branch's report: LOAD_OUTCOME with the Branch's id and the status (R434). -/
def State.bootReport (s : State) (bytes : List Byte) : State :=
  if bytes.length = 4 then s.event 9 (ofBytes (bytes.take 2)) (ofBytes (bytes.drop 2)) else s

/-- BOOT_DATA: on a Branch, a frame of an image; with the last, the image is verified. A Clerk image that fails leaves the Branch LIMITED.
Every failure is reported to the Postmaster, which posts LOAD_OUTCOME (R434, R439, Table 20.3). -/
def execBootData (_p : Fin 4) (kind : Fin 3) (bytes : List Byte) (last : Bool) (s : State) : Host.Outcome State Fault Refusal :=
  if s.role = 1 then .next (s.bootReport bytes)
  else if s.bootMode ≠ 2 || s.boot.stage ≠ 3 then .next s
  else
    let k := kind.val
    let all := tget [] s.tree.rxBoot k ++ bytes
    if !last then .next { s with tree := { s.tree with rxBoot := tset [] s.tree.rxBoot k all } }
    else
      let s := { s with tree := { s.tree with rxBoot := tset [] s.tree.rxBoot k [] } }
      let rd := listImage all
      if decide (832 ≤ all.length) && sgBytes rd == all.length && s.verifies rd k && (k != 0 || sgKind rd == 0) then
        .next (s.takeBootImage k rd)
      else
        let s := (s.imageRefused rd).send msgBootReport 0 (s.ownId + 2 ^ 16 * 13)
        .next (if k = 0 then s.setStage 6 else s)

/-! ### Attestation (R446) -/

/-- Measurement k: M_CLERK, M_CSP, M_CONFIG, M_CAL (Table 20.9). -/
def State.measurement (s : State) (k : Nat) : Option (BitVec 256) :=
  match k with
  | 0 => s.clerkMeas
  | 1 => s.csp.meas
  | 2 => s.boot.cfgMeas
  | _ => s.cal.inForce.map (fun r => sha256Num (((recordBytes r).drop 32).take 24576))

/-- The thermometer's 64 bits (R442). -/
def State.thermometer (s : State) : Nat := 2 ^ s.boot.rollback - 1

/-- Bytes 0 to 255 of a quote (Table 20.9). -/
def State.quoteBody (s : State) (nonce : Nat) : Nat :=
  let m := fun k => ((s.measurement k).getD 0).toNat
  let flags := maskOf 4 (fun k => (s.measurement k).isSome) + 2 ^ 4 * b2n s.ptu.tbWarm + 2 ^ 5 * b2n s.boot.locked
    + 2 ^ 6 * b2n (s.boot.stage == 6) + 2 ^ 8 * s.boot.revoked.toNat
  0x54544151 + 2 ^ 32 * 1 + 2 ^ 48 * 640 + 2 ^ 64 * Config.serial.toNat
    + 2 ^ 128 * time96 (s.ptuNow / tuPerSec) (s.ptuNow % tuPerSec) + 2 ^ 224 * s.cfg.commitSeq + 2 ^ 256 * (nonce % 2 ^ 256)
    + 2 ^ 512 * s.digest.toNat + 2 ^ 768 * m 0 + 2 ^ 1024 * m 1 + 2 ^ 1280 * m 2 + 2 ^ 1536 * m 3 + 2 ^ 1792 * flags
    + 2 ^ 1824 * s.thermometer

/-- ATTEST at its engine: the quote, signed under the identity key, or NO_RESOURCE with the length needed. -/
def engineAttest (nonce addr bytes : Nat) (t : Task) (s : State) : State :=
  if bytes < 640 then s.complete t 5 640
  else
    let body := s.quoteBody nonce
    let sig := Config.attestSignature body s.boot.quoteSeq % 2 ^ 3072
    let s := { s with boot := { s.boot with quoteSeq := s.boot.quoteSeq + 1 } }
    ((s.hostWrite addr 256 body).hostWrite (addr + 256) 384 sig).complete t 0 640

/-- ATTEST. -/
def execAttest (h : Hdr) (nonce addr bytes : Nat) (s : State) : Host.Outcome State Fault Refusal :=
  .next (serve h (.attest nonce addr bytes) (engineAttest nonce addr bytes) s)

/-! ### OTP (R442, R443) -/

/-- SEC_ARM written: 0x5EC0 arms SEC_CMD for 1 ms; any other value is another sequence. -/
def execSecArm (value : BitVec 16) (s : State) : Host.Outcome State Fault Refusal :=
  .next { s with boot := { s.boot with armedUntil := if value = 0x5EC0 then some (s.now + tuPerMs) else none } }

/-- SEC_ARM_EXPIRY: the 1 ms has run. -/
def execSecArmExpiry (s : State) : Host.Outcome State Fault Refusal :=
  match s.boot.armedUntil with
  | none => .next s
  | some t =>
    let s := s.advance t
    .next { s with boot := { s.boot with armedUntil := none } }

/-- One armed SEC_CMD: refused (2), failed in programming (3), or done (1). Unarmed it is ignored. -/
def State.secCmd (s : State) (refused ok : Bool) (effect : Boot → Boot) : State :=
  match s.boot.armedUntil with
  | none => s
  | some t =>
    let b := { s.boot with armedUntil := none }
    if t < s.now then { s with boot := b }
    else if refused then { s with boot := { b with cmdResult := 2 } }
    else if !ok then { s with boot := { b with cmdResult := 3 } }
    else { s with boot := { effect b with cmdResult := 1 } }

/-- PROGRAM_ROOT (Table 20.8). -/
def execProgramRoot (slot : Fin 4) (ok : Bool) (s : State) : Host.Outcome State Fault Refusal :=
  let k := slot.val
  let hash := (List.range 8).foldl (fun v i => v + 2 ^ (32 * i) * s.reg (aSecRootData + 4 * i)) 0
  .next (s.secCmd (decide (k < 2) || s.boot.programmed.getLsbD k) ok (fun b =>
    { b with programmed := b.programmed ||| (1#4 <<< k), roots := tset 0 b.roots k (BitVec.ofNat 256 hash) }))

/-- The images in the current slots of the flash that verify. -/
def State.currentImages (s : State) : List ImageReader := (List.range 3).filterMap (fun k => s.slotGood k (s.slotOf k))

/-- An active image, or an image in a current slot, is signed under a root slot. -/
def State.rootInUse (s : State) (k : Nat) : Bool :=
  (s.clerkMeas.isSome && (tget 0 s.clerk.roots (b2n s.clerk.active)).testBit k)
    || (s.csp.meas.isSome && s.boot.cspRoot == k) || (s.boot.cfgMeas.isSome && s.boot.cfgRoot == k)
    || s.currentImages.any (fun rd => sgRoot rd == k)

/-- REVOKE (Table 20.8). -/
def execRevoke (slot : Fin 4) (ok : Bool) (s : State) : Host.Outcome State Fault Refusal :=
  let k := slot.val
  let left := (List.range 4).countP (fun j => s.rootGood j && j != k)
  .next (s.secCmd (s.rootInUse k || decide (left < 2)) ok (fun b => { b with revoked := b.revoked ||| (1#4 <<< k) }))

/-- Some active image, or image in a current slot, has a SEC_VERSION below a value. -/
def State.versionBelow (s : State) (v : Nat) : Bool :=
  (s.clerkMeas.isSome && decide (tget 0 s.clerk.version (b2n s.clerk.active) < v))
    || (s.csp.meas.isSome && decide (s.csp.version < v)) || (s.boot.cfgMeas.isSome && decide (s.boot.cfgVersion < v))
    || s.currentImages.any (fun rd => decide (sgVersion rd < v))

/-- ADVANCE (Table 20.8). -/
def execAdvance (value : BitVec 7) (ok : Bool) (s : State) : Host.Outcome State Fault Refusal :=
  let v := value.toNat
  .next (s.secCmd (decide (v ≤ s.boot.rollback) || decide (64 < v) || s.versionBelow v) ok (fun b => { b with rollback := v }))

/-- PROD_LOCK (Table 20.8). -/
def execProdLock (ok : Bool) (s : State) : Host.Outcome State Fault Refusal :=
  .next (s.secCmd s.boot.locked ok (fun b => { b with locked := true }))

/-! ### Temperature (R424, R494) -/

/-- THERM_WARN: the hottest die sensor reads `temp` °C: THERM_N asserts at 100 and deasserts below 97. -/
def execThermWarn (temp : Int) (s : State) : Host.Outcome State Fault Refusal :=
  let s := s.recur 91 s.thermHeld
  let hot := decide (100 ≤ temp) || (s.boot.therm && decide (97 ≤ temp))
  let s := State.noteStatus { s with boot := { s.boot with therm := hot, thermTemp := temp } }
  .next (if 100 ≤ temp then s.fault 91 0 else s)

/-- THERM_SHUTDOWN: every channel output driver, the memory interface and the Courier transmitters turn off, until POR_N (R424). -/
def execThermShutdown (s : State) : Host.Outcome State Fault Refusal :=
  if s.boot.thermLatched then .next s
  else
    let s := State.noteStatus { s with boot := { s.boot with thermLatched := true } }
    let s := (List.range 128).foldl (fun (s : State) c => s.forceIdle c true s.now) s
    let s := { s with mem := { s.mem with state := 0 } }
    let s := (List.range 4).foldl (fun (s : State) p =>
      let was := (s.port p).st == .active || (s.port p).st == .recovery
      let s := s.portDown p false
      if was then s.linkGone p else s) s
    .next (s.fault 92 0)

end Sys2Proof.Machine
end

