-- ==== Sys2Proof/Machine/Rings.lean ====
section
/-! DEFINITION. CANCEL, and what enables, shuts down, disables and resizes a ring set (R234, R236, R238 to R240, R255, R270 to
R273). -/

namespace Sys2Proof.Machine

/-! ### CANCEL (R270 to R273) -/

/-- A CANCEL never matches a CANCEL or a STOP, nor a task that arrived over Courier. -/
def cancellable (t : Task) : Bool := !isFree t.op && !t.courier

/-- A RUN's site stops as by STOP, with END_REASON 2, at the moment of the first request (R271). -/
def State.cancelStop (s : State) (site : Nat) : State :=
  s.modSite site (fun x => { x with stopReq := some ((x.stopReq.map (·.1)).getD s.now, 2) })

/-- A RUN in service is cancelled by the state of its site (Table 12.4); the flag tells that it counts. -/
def State.cancelRun (s : State) (site : Nat) : State × Bool :=
  match (s.site site).st with
  | .armed => (s.abortArmed (s.leadSite site) 2 1 false, true)
  | .run => (s.cancelStop site, true)
  | .hold => (s.cancelStop site, true)
  | _ => (s, false)

/-- A COMMIT in service is cancelled until its first item applies (R185). -/
def State.cancelCommit (s : State) (t : Task) : State × Bool :=
  if waitsToBegin s.cfg.pending s.cfg.system t then (s.complete t 1 (s.commitResult 0 0), true)
  else
    match s.cfg.pending with
    | some p => if p.task = some t.id then s.cancelPending p else (s, false)
    | none => (s, false)

/-- The survey that a task runs, with its site. -/
def State.surveyOfTask (s : State) (id : Nat) : Option (Nat × Survey) :=
  (List.range 32).findSome? (fun k => ((s.site k).surveys.find? (fun v => v.task == id)).map (fun v => (k, v)))

/-- One matched task is cancelled, or left alone (Table 12.4); the flag tells that it counts as cancelled. A DELAY that falls due in
the same CLK_CORE cycle, or has fallen due, ends with its own status (R272). -/
def State.cancelTask (s : State) (t : Task) : State × Bool :=
  if t.st != .inService then (s.complete t 1 0, true)
  else
    match t.op with
    | .delay _ => if t.due / tuPerNs ≤ s.now / tuPerNs then (s.complete t 0 0, false) else (s.complete t 1 0, true)
    | .run site .. => s.cancelRun site
    | .commit .. => s.cancelCommit t
    | .cspStart .. => if s.csp.task = some t.id then (s.cspLeave .halted 1 0, true) else (s, false)
    | .eyeSurvey .. =>
      match s.surveyOfTask t.id with
      | some (k, v) => (s.endSurvey k v 1, true)
      | none => (s, false)
    | _ => (s, false)

/-- Tasks are cancelled one after another: the ids that count as cancelled, and whether some did not. -/
def State.cancelAll (s : State) (ts : List Task) : State × List Nat × Bool :=
  ts.foldl (fun (acc : State × List Nat × Bool) t =>
    match acc.1.task t.id with
    | none => (acc.1, acc.2.1, true)
    | some u =>
      let (s, ok) := acc.1.cancelTask u
      (s, if ok then acc.2.1 ++ [t.id] else acc.2.1, acc.2.2 || !ok)) (s, [], false)

/-- The tasks a CANCEL matches: of its ring set, by tag or by flow; no task has flow 0. -/
def State.cancelMatches (s : State) (t : Task) (byFlow key : Nat) : List Task :=
  s.so.tasks.filter (fun u => u.hdr.rs == t.hdr.rs && u.id != t.id && cancellable u
    && (if byFlow = 0 then u.hdr.tag.toNat == key else key != 0 && u.hdr.flow.toNat == key))

/-- CANCEL at its engine: it completes once every task it cancelled has. -/
def engineCancel (byFlow key : Nat) (t : Task) (s : State) : State :=
  let (s, ids, spared) := s.cancelAll (s.cancelMatches t byFlow key)
  let status := if spared then 4 else 0
  let waits := ids.filter (fun i => (s.task i).isSome)
  if waits.isEmpty then s.complete t status ids.length
  else s.modTask t.id (fun u => { u with waitsFor := waits, outcome := some (status, ids.length) })

/-- CANCEL. -/
def execCancel (h : Hdr) (byFlow key : Nat) (s : State) : Host.Outcome State Fault Refusal :=
  .next (serve h (.cancel byFlow key) (engineCancel byFlow key) s)

/-! ### Enable and shutdown (R239, R240) -/

/-- HIF_RS_CTRL_k.ENABLE as it reads. -/
def State.setEnable (s : State) (k : Nat) (b : Bool) : State :=
  s.setReg (aRs k 0x20) (putFld (s.reg (aRs k 0x20)) 0 1 (b2n b))

/-- A DISABLED ring set is enabled: indices 0, the write-back area zero. -/
def State.enterEnabled (s : State) (k : Nat) : State :=
  let s := s.modRs k (fun r => { RingSet.reset with st := .enabled, resize := r.resize })
  let s := if k = 0 then { s with hif := { s.hif with evtProd := 0, evtCons := 0, evtSigCount := 0, evtSigFirst := none } } else s
  s.hostWrite (s.reg64 (aRs k 0x18)) 64 0

/-- ENABLE written from 0 to 1. -/
def State.enableRs (s : State) (k : Nat) : State :=
  let s := s.setEnable k true
  match (s.rs k).st with
  | .disabled => s.enterEnabled k
  | .shuttingDown => (s.modRs k (fun r => { r with enablePending := true })).writeBack k
  | .enabled => s

/-- The tasks of a ring set that are in service, or those that are not. -/
def State.ringTasks (s : State) (k : Nat) (served : Bool) : List Task :=
  s.so.tasks.filter (fun u => ofRing k u && (u.st == .inService) == served)

/-- The shutdown of a ring set (R240): fetching stops, tasks not in service are cancelled, then those in service where they can be, its
streams close, its draft goes. -/
def State.shutdownRs (s : State) (k : Nat) : State :=
  let s := s.setEnable k false
  match (s.rs k).st with
  | .disabled => s
  | .shuttingDown => (s.modRs k (fun r => { r with enablePending := false })).writeBack k
  | .enabled =>
    let s := s.modRs k (fun r => { r with st := .shuttingDown })
    let s := s.setRc (aRs k 0x2C) 0
    let s := (s.cancelAll (s.ringTasks k false)).1
    let s := (s.cancelAll (s.ringTasks k true)).1
    let s := (List.range 16).foldl (fun (s : State) st =>
      if isTaking (s.stream st) && (s.stream st).rs == k then s.beginClose st none 0 else s) s
    ({ s with cfg := { s.cfg with drafts := tset [] s.cfg.drafts k [] } }).writeBack k

/-- RING_SET_ENABLE. -/
def execRingSetEnable (k : Fin 64) (s : State) : Host.Outcome State Fault Refusal := .next (s.enableRs k.val)

/-- RING_SET_SHUTDOWN. -/
def execRingSetShutdown (k : Fin 64) (s : State) : Host.Outcome State Fault Refusal := .next (s.shutdownRs k.val)

/-- A ring set's registers return to their reset values, its grant apart (R455). -/
def State.resetRsRegs (s : State) (k : Nat) : State :=
  { s with regs := s.regs.filter (fun e => !(decide (aRs k 0 ≤ e.1) && decide (e.1 < aRs k 0x40) && e.1 != aRs k 0x34)) }

/-- Streams that the ring set still has to close. -/
def State.rsStreams (s : State) (k : Nat) : Bool := (List.range 16).any (fun st => (s.stream st).isOpen && (s.stream st).rs == k)

/-- RING_SET_STATE: the last completion of a shutdown has been written: DISABLED, and an enable that waited (R240). -/
def execRingSetState (k : Fin 64) (s : State) : Host.Outcome State Fault Refusal :=
  let k := k.val
  let r := s.rs k
  if r.st != .shuttingDown || s.rsTasks k != 0 || s.rsStreams k then .next s
  else
    let s := s.event 5 k (4 * b2n r.enablePending)
    let s := s.modRs k (fun r => { r with st := .disabled, enablePending := false, resetRegs := false, nextBase := [] })
    let s := s.writeBack k
    let s := if r.resetRegs then s.resetRsRegs k else s
    .next (if r.enablePending then s.enterEnabled k else s)

/-! ### Resize (R255) -/

/-- The ring is empty. -/
def State.ringEmpty (s : State) (k r : Nat) : Bool :=
  let x := s.rs k
  match r with
  | 0 => x.cmdProd == x.cmdCons
  | 1 => x.cplCons == x.cplProd
  | 2 => x.strProd == x.strCons
  | _ => s.hif.evtCons == s.hif.evtProd

/-- Both indices of a ring become 0. -/
def State.zeroRing (s : State) (k r : Nat) : State :=
  match r with
  | 0 => s.modRs k (fun x => { x with cmdProd := 0, cmdCons := 0 })
  | 1 => s.modRs k (fun x => { x with cplProd := 0, cplCons := 0 })
  | 2 => s.modRs k (fun x => { x with strProd := 0, strCons := 0 })
  | _ => { s with hif := { s.hif with evtProd := 0, evtCons := 0 } }

/-- RING_RESIZED: a pending resize applies at the first moment at which the ring is empty. -/
def execRingResized (k : Fin 64) (ring : Fin 4) (s : State) : Host.Outcome State Fault Refusal :=
  let k := k.val
  let i := ring.val
  match tget none (s.rs k).resize i with
  | none => .next s
  | some l =>
    if !s.ringEmpty k i then .next s
    else
      let s := s.setReg (aRs k 0x30) (putFld (s.reg (aRs k 0x30)) (8 * i) 5 l)
      let s := match tget none (s.rs k).nextBase i with
        | some b => s.setReg64 (aRingBase k i) b.toNat
        | none => s
      let s := s.zeroRing k i
      let s := s.modRs k (fun x => { x with resize := tset none x.resize i none, nextBase := tset none x.nextBase i none })
      .next ((s.writeBack k).event 3 (k + 2 ^ 8 * i) l)

/-! ### Grants and resets of functions (R236, R238, R455) -/

/-- The VF that the SITES fields name for a site: the lowest that names it, 0 where none does. -/
def State.siteTarget (s : State) (k : Nat) : Nat :=
  (((List.range 32).map (· + 1)).find? (fun v => (s.reg (aGrant v 0)).testBit k)).getD 0

/-- A site's grant comes into force. -/
def State.applyGrant (s : State) (k : Nat) : State := { s with hif := { s.hif with holder := tset 0 s.hif.holder k (s.siteTarget k) } }

/-- GRANT_APPLIED: a change of a site's grant that waited applies once the site is IDLE. -/
def execGrantApplied (site : Fin 32) (s : State) : Host.Outcome State Fault Refusal :=
  let k := site.val
  if s.siteTarget k == s.siteFn k || (s.site k).st != .idle then .next s
  else .next ((s.applyGrant k).event 6 k (s.siteTarget k))

/-- A function's MSI-X table is masked again, and nothing of it is pending (PRESUMED, the PCIe specification's reset
values, notes/assumptions/38.md). -/
def State.resetMsix (s : State) (fn : Nat) : State :=
  { s with hif := { s.hif with
    unmasked := s.hif.unmasked.filter (fun x => x / 128 != fn), msixPending := s.hif.msixPending.filter (fun x => x / 128 != fn) } }

/-- A function's ring sets shut down, their registers to be reset. -/
def State.resetRs (s : State) (k : Nat) : State :=
  let s := s.shutdownRs k
  if (s.rs k).st == .disabled then s.resetRsRegs k else s.modRs k (fun r => { r with resetRegs := true, enablePending := false })

/-- VF_FLR: the VF's ring sets shut down and its sites stop; its grants stay. -/
def execVfFlr (vf : Fin 33) (s : State) : Host.Outcome State Fault Refusal :=
  let v := vf.val
  if v = 0 then .next s
  else
    let ks := (List.range 64).filter (fun k => s.rsFn k == v)
    let s := ks.foldl (fun (s : State) k => s.resetRs k) s
    let s := ((List.range 32).filter (fun k => s.siteFn k == v)).foldl (fun (s : State) k => s.stopSite k) s
    .next (s.resetMsix v)

/-- LINK_RESET: every ring set shuts down, every site stops, every stream closes, every draft is abandoned (R238). -/
def execLinkReset (cause : Fin 3) (s : State) : Host.Outcome State Fault Refusal :=
  let s := (List.range 64).foldl (fun (s : State) k => s.resetRs k) s
  let s := (List.range 32).foldl (fun (s : State) k => s.stopSite k) s
  let s := { s with cfg := { s.cfg with drafts := [] } }
  let s := (List.range 33).foldl (fun (s : State) v => s.resetMsix v) s
  let s := { s with hif := { s.hif with vfEnabled := 0, numVfs := 0 } }
  let s := if cause = 2 then { s with hif := { s.hif with rate := 0, width := 0, flit := false } } else s.setReg aEvtVector 0
  .next (if cause = 0 then s else s.fault 53 0)

/-- PCIE_LINK_TRAINED: the link trains at a rate and width, in FLIT mode always at 64 GT/s and else where the host supports it; below
64 GT/s or x8 source 54 asserts (R231). -/
def execPcieLinkTrained (rate : Fin 4) (width : Nat) (hostFlit : Bool) (s : State) : Host.Outcome State Fault Refusal :=
  let s := { s with hif := { s.hif with rate := rate.val, width := width, flit := rate == 3 || hostFlit } }
  .next (if rate.val < 3 ∨ width < 8 then s.fault 54 (rate.val + 2 ^ 8 * width) else s)

/-! ### Signals (R254) -/

/-- MSIX_SIGNAL_TIMEOUT: TIME_US after the first entry written since the last signal; ring 0 completion, 1 stream, 2 event. -/
def execMsixSignalTimeout (k : Fin 64) (ring : Fin 3) (s : State) : Host.Outcome State Fault Refusal :=
  let k := if ring.val = 2 then 0 else k.val
  let r := ring.val + 1
  match (s.sigState k r).2 with
  | none => .next s
  | some t => .next ((s.advance (t + fld (s.reg (aRs k 0x28)) 24 8 * tuPerUs)).signalRing k r)

/-- MSIX_UNMASK: a pending message of the vector is sent. -/
def execMsixUnmask (fn : Fin 33) (vector : Fin 128) (s : State) : Host.Outcome State Fault Refusal :=
  if fn.val ≠ 0 ∧ 4 ≤ vector.val then .next s
  else
    let x := fn.val * 128 + vector.val
    let s := { s with hif := { s.hif with unmasked := if x ∈ s.hif.unmasked then s.hif.unmasked else x :: s.hif.unmasked } }
    if x ∈ s.hif.msixPending then
      .next ({ s with hif := { s.hif with msixPending := s.hif.msixPending.filter (· != x) } }.emit (.msix fn.val vector.val))
    else .next s

end Sys2Proof.Machine
end

