-- ==== Sys2Proof/Machine/RegView.lean ====
section
/-! DEFINITION. What every register of the set-up window reads as (Tables 11.3, 12.5, 13.9, 14.3, 15.8, 16.8, 17.5, 18.6, 19.5, 20.11,
21.2 to 21.12), which addresses a function may reach, and the reads that act. Addresses are those of the PF's window. -/

namespace Sys2Proof.Machine

/-- The low or high 32 bits of a 64-bit register, by the address's place. -/
def half (v a : Nat) : Nat := fld v (if a % 8 = 0 then 0 else 32) 32

/-- 32 bits of a longer value from a byte offset. -/
def word32 (v off : Nat) : Nat := fld v (8 * off) 32

/-- The 32-bit pattern of a signed value. -/
def s32 (i : Int) : Nat := ofSigned 32 i

/-- 64-bit registers: the address of the low half of the one that holds an address (R451). -/
def wideLow (a : Nat) : Option Nat :=
  let lo := a / 8 * 8
  if 0x2400 ≤ a ∧ a < 0x2800 then (if (lo - 0x2400) % 32 = 8 ∨ (lo - 0x2400) % 32 = 16 then some lo else none)
  else if 0x3000 ≤ a ∧ a < 0x4000 then
    (if lo % 64 ∈ [0x00, 0x08, 0x10, 0x18] ∨ (lo % 64 = 0x38) then some lo else none)
  else if 0x6000 ≤ a ∧ a < 0x6400 then (if lo % 256 = 0x30 then some lo else none)
  else if a = 0x7020 ∨ a = 0x7024 ∨ a = 0x7028 ∨ a = 0x702C then some lo
  else if 0x7080 ≤ a ∧ a < 0x7180 then (if (lo - 0x7080) % 32 < 24 then some lo else none)
  else none

/-! ### Values, block by block -/

def State.sysValue (s : State) (a : Nat) : Nat :=
  match a with
  | 0x0 => 0x00015128 + 2 ^ 20 * b2n Config.gradeEA
  | 0x4 => b2n (s.boot.stage == 5) + 2 * b2n s.boot.refLock + 4 * b2n s.boot.therm + 8 * b2n s.faultN
  | 0x8 => half Config.serial.toNat a
  | 0xC => half Config.serial.toNat a
  | 0x14 => s.reg a
  | _ => 0

def State.clkValue (s : State) (a : Nat) : Nat :=
  if a = 0x1000 then b2n s.boot.refLock + 2 * b2n s.boot.refFclk + 4 * b2n s.mem.dpc2
    + 8 * b2n (s.boot.refLock || (decide (2 ≤ s.boot.stage) && s.boot.stage != 15)) + 16 * b2n s.boot.ocxo
  else if a = 0x1004 then s.reg a
  else if a = 0x100C then s32 s.ptu.phase
  else if a = 0x1008 ∨ (0x1400 ≤ a ∧ a < 0x1800) then s.rcOf a
  else 0

/-- STATUS of a grant block: SITES bits that wait for IDLE (R236). -/
def State.grantStatus (s : State) (v : Nat) : Nat :=
  maskOf 32 (fun k => s.siteTarget k != s.siteFn k && (s.reg (aGrant v 0)).testBit k != (s.siteFn k == v))

def State.hifValue (s : State) (a : Nat) : Nat :=
  if a = 0x2000 then s.hif.rate + 16 * s.hif.width + 256 * b2n s.hif.flit
  else if a = 0x2004 then s.reg a
  else if a = 0x2008 then s.hif.vfEnabled.toNat
  else if a = 0x200C then s.hostLimit
  else if 0x2400 ≤ a ∧ a < 0x2800 then
    (if a % 32 = 24 then s.grantStatus ((a - 0x2400) / 32 + 1) else if a % 32 < 24 then s.reg a else 0)
  else if 0x3000 ≤ a ∧ a < 0x4000 then
    let k := (a - 0x3000) / 64
    (match a % 64 with
     | 0x24 => s.rsStatus k
     | 0x2C => s.rcOf a
     | _ => s.reg a)
  else 0

def State.soValue (s : State) (a : Nat) : Nat :=
  if a = 0x4000 then s.freeSlots % 2 ^ 13 + 2 ^ 13 * b2n (decide (s.freeSlots < 16)) + 2 ^ 16 * (s.so.tasks.countP inDelayList)
  else if a = 0x4008 then s.rcOf a
  else if a = 0x400C then s.so.tasks.countP (fun t => t.st == .waiting)
  else if a = 0x4004 ∨ (0x4010 ≤ a ∧ a < 0x4090) then s.reg a
  else 0

/-- The erased device of a subchannel of a rank, plus one. -/
def erasedNibble (x : Rank) (sub : Nat) : Nat :=
  match x.erased.find? (fun e => e.1 == sub) with | some e => e.2 + 1 | none => 0

def State.mcValue (s : State) (a : Nat) : Nat :=
  let m := s.mem
  if a = 0x5000 then
    m.state + 4 * b2n m.dpc2 + 8 * b2n m.d32 + 16 * b2n m.doubled + 32 * b2n m.migration.isSome
      + maskOf 4 (fun c => (s.spareOf c).isSome) * 64 + 1024 * min 15 m.queue.length
  else if a = 0x5004 ∨ a = 0x5008 ∨ a = 0x5074 then s.reg a
  else if a = 0x5010 ∨ a = 0x5014 then half m.capacity a
  else if a = 0x5018 ∨ a = 0x501C then half ((m.migration.map (·.progress)).getD 0) a
  else if 0x5020 ≤ a ∧ a < 0x5030 then
    let c := (a - 0x5020) / 4
    (s.spareOf c).getD 0 + 4 * s.physOf c 0 + 16 * s.physOf c 1 + 64 * s.physOf c 2 + 256 * maskOf 4 (fun r => (s.rank c r).retired)
  else if 0x5030 ≤ a ∧ a < 0x5040 then
    let c := (a - 0x5030) / 4
    (List.range 4).foldl (fun v r => v + 2 ^ (8 * r) * (erasedNibble (s.rank c r) 0 + 16 * erasedNibble (s.rank c r) 1)) 0
  else if 0x5040 ≤ a ∧ a < 0x5050 then
    let c := (a - 0x5040) / 4
    ofSigned 16 (tget 0 m.temps (2 * c)) + 2 ^ 16 * ofSigned 16 (tget 0 m.temps (2 * c + 1))
  else if 0x5050 ≤ a ∧ a < 0x5070 then s.rcOf a
  else if a = 0x5070 then m.poisonCount
  else if a = 0x5078 ∨ a = 0x507C then
    (match m.poisonLog[fld (s.reg 0x5074) 0 8]? with | some l => half (l + 2 ^ 63) a | none => 0)
  else 0

/-- COU_STATUS_p (Table 13.10). -/
def couStatus (x : Port) : Nat :=
  portCode x.st + 16 * x.tx.toNat + 256 * x.rx.toNat + 2 ^ 12 * b2n x.reversed + 2 ^ 13 * x.inverted.toNat + 2 ^ 17 * b2n x.filler
    + 2 ^ 18 * b2n x.fclkOk + 2 ^ 24 * x.lostFrames

/-- Mismatches and compared bits of a port's eye scan; while it runs, the mismatches so far are a free value (R302,
notes/assumptions/35.md). -/
def State.eyeCounts (s : State) (p : Nat) : Nat × Nat :=
  let x := s.port p
  if x.eyeRunning then
    let n := eyeSoFar x (s.reg (aCou p 0x48)) s.now
    (Config.freeNat 38 s.freeCount % (n + 1), n)
  else (x.eyeMismatch, x.eyeCompared)

/-- COU_RAW: in raw mode, of each lane the sync header of the last whole word at its slipped boundary, in the bits that arrive; else a
free value (R305, notes/assumptions/35.md). -/
def State.rawHeaders (s : State) (p : Nat) : Nat :=
  let x := s.port p
  if x.st == .test && (s.reg (aCou p 0x28)).testBit 3 then
    maskOf 8 (fun i =>
      let slip := tget 0 x.slips (i / 2)
      Config.courierBit (4 * p + i / 2) (66 * ((s.now / bitTime - slip) / 66 - 1) + slip + i % 2))
  else Config.freeNat 35 s.freeCount % 256

def State.couValue (s : State) (a : Nat) : Nat :=
  if a = 0x6400 then s.reg a
  else if a < 0x6400 then
    let x := s.port ((a - 0x6000) / 256)
    let o := a % 256
    if o = 0x04 then couStatus x
    else if o = 0x48 then fld (s.reg a) 0 31 + 2 ^ 31 * b2n x.eyeDone
    else if o = 0x50 ∨ o = 0x54 then half (s.eyeCounts ((a - 0x6000) / 256)).1 a
    else if o = 0x58 ∨ o = 0x5C then half (s.eyeCounts ((a - 0x6000) / 256)).2 a
    else if o = 0x60 then s.rawHeaders ((a - 0x6000) / 256)
    else if o = 0x64 then fld x.peer.toNat 0 32
    else if o = 0x68 then fld x.peer.toNat 32 32
    else if (0x0C ≤ o ∧ o < 0x28) ∨ (0x38 ≤ o ∧ o < 0x48) then s.rcOf a
    else if o = 0x00 ∨ o = 0x28 ∨ o = 0x2C ∨ o = 0x30 ∨ o = 0x34 then s.reg a
    else 0
  else 0

/-- PTU_STATUS.STATE. -/
def timeCode : TimeState → Nat
  | .unset => 0
  | .locking => 1
  | .locked => 2
  | .holdover => 3

/-- The time that the PTU time registers give: the captured one, or the present one (R315). -/
def State.timeRead (s : State) : Nat × Nat :=
  s.ptu.captured.getD (s.ptuNow % tuPerSec, s.ptuNow / tuPerSec % 2 ^ 48)

def State.ptuValue (s : State) (a : Nat) : Nat :=
  let p := s.ptu
  let sel := fld (s.reg aMatchSel) 0 8
  if a = 0x7000 ∨ a = 0x7060 then s.reg a
  else if a = 0x7004 then
    timeCode p.st + 8 * b2n p.tbWarm + 16 * b2n s.tree.inEpoch + 32 * b2n s.activeB + 64 * b2n p.domA.ok + 128 * b2n p.domB.ok
      + 256 * b2n p.stepNeeded + 512 * b2n s.tree.aligned + 1024 * b2n p.degraded + 2048 * b2n p.matchRefused
  else if a = 0x7008 then s32 p.rate
  else if a = 0x700C then
    s.ownId + 2 ^ 15 * b2n (s.role != 1 && s.tree.id.isNone) + 2 ^ 16 * s.role + 2 ^ 18 * s.tree.hops + 2 ^ 22 * s.tree.upstream
  else if a = 0x7010 then fld (s.ptuNow % tuPerSec) 0 32
  else if a = 0x7014 then fld s.timeRead.1 32 11
  else if a = 0x7018 then fld s.timeRead.2 0 32
  else if a = 0x701C then fld s.timeRead.2 32 16
  else if 0x7030 ≤ a ∧ a < 0x7040 then s.reg a
  else if 0x7040 ≤ a ∧ a < 0x7050 then (s.port ((a - 0x7040) / 4)).path % 2 ^ 24
  else if a = 0x7050 then s.tree.lsys % 2 ^ 22
  else if a = 0x7054 then s.cfg.epoch % 2 ^ 32
  else if a = 0x7058 then s32 (sat32 p.theta)
  else if a = 0x705C then (if p.st == .holdover then min (2 ^ 32 - 1) ((s.now - p.holdSince) / tuPerSec) else 0)
  else if a = 0x7064 then (s.mgroup sel).combiner % 1024
  else if a = 0x7068 then s.matchH sel % 2 ^ 22
  else if a = 0x706C then s.rcOf a
  else if a = 0x7070 ∨ a = 0x7074 then
    half (if s.dual then ofSigned 64 (s.domainOf (!s.activeB)).offset else 0) a
  else if a = 0x7078 ∨ a = 0x707C then half (ofSigned 64 p.syncErr) a
  else if 0x7080 ≤ a ∧ a < 0x7180 then
    let g := (a - 0x7080) / 32
    (if a % 32 = 24 then fld (s.reg a) 16 16 * 2 ^ 16 + b2n (s.gen g).arm + 2 * b2n (s.gen g).missed
     else if a % 32 = 28 then 0 else s.reg a)
  else 0

/-- The log entry that FC_LOG_SEL took. -/
def State.logWord (s : State) (f : FaultEntry → Nat) : Nat := match s.fc.snapshot with | some e => f e | none => 0

def State.fcValue (s : State) (a : Nat) : Nat :=
  let bits := fun (w : Nat) (f : Src → Bool) => maskOf 32 (fun i => f (s.src (32 * w + i)))
  if a < 0x800C then bits ((a - 0x8000) / 4) (·.sticky)
  else if 0x8010 ≤ a ∧ a < 0x801C then bits ((a - 0x8010) / 4) (·.active)
  else if 0x8020 ≤ a ∧ a < 0x802C then bits ((a - 0x8020) / 4) (·.injOnly)
  else if a = 0x8030 then b2n s.faultN + 2 * b2n s.isStopped + 256 * s.fc.log.length
  else if (0x8060 ≤ a ∧ a < 0x8074) ∨ a = 0x8080 then s.reg a
  else if a = 0x8084 then
    s.logWord (fun e => e.source + 2 ^ 8 * faultClass e.source + 2 ^ 11 * e.reaction + 2 ^ 14 * b2n e.injected)
  else if a = 0x8088 then s.logWord (fun e => e.detail.toNat)
  else if a = 0x8090 ∨ a = 0x8094 then half (s.logWord (·.time)) a
  else if 0x8200 ≤ a ∧ a < 0x8380 then
    let n := (a - 0x8200) / 4
    fld (s.reg a) 0 4 + 16 * faultClass n + 2 ^ 16 * (s.src n).recoveries
  else if 0x8400 ≤ a ∧ a < 0x8580 then (s.src ((a - 0x8400) / 4)).detail.toNat
  else if 0x8600 ≤ a ∧ a < 0x8900 then half (s.src ((a - 0x8600) / 8)).firstAt a
  else 0

/-- A byte of a trim block as applied (Table 16.1). -/
def State.trimByte (s : State) (block off : Nat) : Nat :=
  match payloadField (128 * block + off) with
  | some (k, _) => s.trim k / 2 ^ (8 * (128 * block + off - k)) % 256
  | none => 0

def State.calValue (s : State) (a : Nat) : Nat :=
  let bits := fun (f : Group → Bool) => maskOf 16 (fun g => f (s.group g))
  if a = 0x900C then bits isOverdue + 2 ^ 16 * bits (·.isStale)
  else if a = 0x9010 then bits (fun x => x.queue.any (·.started)) + 2 ^ 16 * bits (·.due)
  else if a = 0x9014 then bits (·.replicaOut) + 2 ^ 16 * bits (·.trackLag)
  else if a = 0x9038 then s.cal.badBlocks.toNat + 2 ^ 16 * b2n s.cal.noRecord
  else if a = 0x903C then ((s.cal.inForce.map (·.seq)).getD 0) % 2 ^ 32
  else if 0x9080 ≤ a ∧ a < 0x90C0 then
    let x := s.group ((a - 0x9080) / 4)
    ofSigned 16 x.calTemp + 2 ^ 16 * b2n (isOverdue x) + 2 ^ 17 * b2n x.isStale + 2 ^ 18 * b2n x.due + 2 ^ 19 * b2n x.isPartial
      + 2 ^ 20 * b2n x.replicaOut + 2 ^ 21 * b2n x.trackLag + 2 ^ 24 * x.lag
  else if 0x9100 ≤ a ∧ a < 0x9300 then s.rcOf a
  else if 0x9300 ≤ a ∧ a < 0x9340 then
    fld (s.reg a) 0 7 + 2 ^ 8 * fld (s.reg a) 8 1 + 2 ^ 9 * b2n (s.group ((a - 0x9300) / 4)).loopRefused + 2 ^ 16 * fld (s.reg a) 16 16
  else if a = 0x9344 then
    let sel := s.reg 0x9340
    (List.range 4).foldl (fun v i => v + 2 ^ (8 * i) * s.trimByte (fld sel 0 8) (4 * fld sel 8 5 + i)) 0
  else if a ≤ 0x9008 ∨ (0x9018 ≤ a ∧ a ≤ 0x9034) ∨ (0x90C0 ≤ a ∧ a < 0x9100) ∨ a = 0x9340 ∨ 0x9800 ≤ a then s.reg a
  else 0

/-- Urgent requests that wait on a converter. -/
def urgentWaiting (c : Conv) : Nat := c.queue.countP (·.urgent)

def State.adcValue (s : State) (a : Nat) : Nat :=
  let d := s.adc
  let retests := fun (c : Conv) => (match c.cur with | some r => r.retest.isSome | none => false) || c.queue.any (fun r => r.retest.isSome)
  let high := fun p => fld ((tget none d.frozen p).getD (s.adcLatest p)).toNat 32 32
  match a with
  | 0xA004 => b2n d.a.isOut + 2 * b2n d.b.isOut + 4 * b2n d.a.cur.isSome + 8 * b2n d.b.cur.isSome
      + 16 * b2n (retests d.a || retests d.b) + 256 * min 255 (urgentWaiting d.a + urgentWaiting d.b)
  | 0xA018 => s.rcOf a
  | 0xA020 => fld (s.adcLatest 0).toNat 0 32
  | 0xA024 => high 0
  | 0xA028 => fld (s.adcLatest 1).toNat 0 32
  | 0xA02C => high 1
  | 0xA038 => fld (s.adcLatest 2).toNat 0 32
  | 0xA03C => high 2
  | 0xA000 => s.reg a
  | 0xA00C => s.reg a
  | 0xA010 => s.reg a
  | 0xA014 => s.reg a
  | 0xA030 => s.reg a
  | _ => 0

/-- CLERK_STATUS.INACTIVE. -/
def bankCode : BankState → Nat
  | .empty => 0
  | .verified => 1
  | .bad => 2

def State.clerkValue (s : State) (a : Nat) : Nat :=
  let c := s.clerk
  if a = 0xB000 then
    b2n c.active + 2 * bankCode c.inactive + 8 * b2n c.swapPending.isSome + 16 * maskOf 10 (fun k => (s.ctx k).busy)
  else if a = 0xB020 then
    (match c.badWord with | some (b, w) => w + 2 ^ 13 * b2n b + 2 ^ 31 | none => 0)
  else if a = 0xB024 then c.viol % 2 ^ 32
  else if a = 0xB018 ∨ a = 0xB01C ∨ a = 0xB028 ∨ a = 0xB02C then s.rcOf a
  else if 0xB030 ≤ a ∧ a < 0xB058 then
    let k := (a - 0xB030) / 4
    let x := s.ctx k
    x.entry + 2 ^ 13 * b2n (c.running == some k) + 2 ^ 14 * b2n x.waiting + 2 ^ 15 * b2n (x.busy && x.noAbort) + 2 ^ 16 * x.journal.length
  else if 0xB004 ≤ a ∧ a ≤ 0xB010 then s.reg a
  else 0

/-- CSP_STATUS.STATE. -/
def cspCode : CspState → Nat
  | .off => 0
  | .loaded => 1
  | .running => 2
  | .halted => 3
  | .faulted => 4

def State.cspValue (s : State) (a : Nat) : Nat :=
  let c := s.csp
  match a with
  | 0xC000 => cspCode c.st + 8 * b2n c.activatePending.isSome + 16 * b2n (c.flags.getLsbD 0) + 256 * (c.exception % 16)
  | 0xC004 => c.pc % 2 ^ 32
  | 0xC008 => c.inQ.length + 2 ^ 16 * c.outQ.length
  | 0xC00C => s.rcOf a
  | 0xC010 => s.rcOf a
  | _ => 0

def State.secValue (s : State) (a : Nat) : Nat :=
  let b := s.boot
  if a = 0xD000 then b.stage + 16 * b2n b.strapInvalid + 32 * b2n b.configRefused + 64 * b.fallback.toNat
  else if a = 0xD004 then b.straps.toNat
  else if a = 0xD008 then b.programmed.toNat + 16 * b.revoked.toNat + 256 * b2n b.locked + 2 ^ 16 * b.rollback
  else if a = 0xD010 ∨ a = 0xD014 then half s.thermometer a
  else if a = 0xD020 then b.cmdResult
  else if 0xD040 ≤ a ∧ a < 0xD060 then s.reg a
  else if a = 0xD060 then
    b.current.toNat + 8 * maskOf 3 (fun k => b.slotOk.getLsbD (2 * k + (1 - s.slotOf k)))
  else if a = 0xD064 then b.norLog2 + 256 * b2n b.quad
  else if a = 0xD068 then
    tget 0 s.clerk.version (b2n s.clerk.active) % 256 + 2 ^ 8 * (s.csp.version % 256) + 2 ^ 16 * (b.cfgVersion % 256)
      + 2 ^ 24 * (s.inactiveVersion % 256)
  else if 0xD080 ≤ a ∧ a < 0xD100 then word32 ((s.measurement ((a - 0xD080) / 32)).getD 0).toNat (a % 32)
  else 0

def State.pecValue (s : State) (a : Nat) : Nat :=
  let x := s.group ((a - 0xE000) / 64)
  match a % 64 with
  | 0x0 => if 0xE400 ≤ a then 0 else
      b2n x.peBusy + 2 * (x.peSlot % 4) + 8 * b2n x.peCal + 16 * b2n x.alertLow + 256 * transfersDone x s.now
  | 0x4 => s.rcOf a
  | 0x8 => s.rcOf a
  | 0x10 => if 0xE400 ≤ a then 0 else fld x.peLastEnd 0 32
  | 0x14 => if 0xE400 ≤ a then 0 else fld x.peLastEnd 32 32
  | _ => 0

def State.trgValue (s : State) (a : Nat) : Nat :=
  if a = 0xF000 then maskOf 16 (fun i => tget false s.trg.level i)
  else if a = 0xF004 then maskOf 16 (fun l => (tget none s.trg.active l).isSome)
  else if 0xF040 ≤ a ∧ a < 0xF0C0 then s.rcOf a
  else 0

/-- Code of a sequencer state (Table 21.12). -/
def seqCode : SeqState → Nat
  | .idle => 0
  | .armed => 1
  | .run => 2
  | .hold => 3
  | .starved => 4
  | .drain => 5
  | .parked => 6

/-- SYS_CV_SITE_s. -/
def State.cvSite (s : State) (k : Nat) : Nat :=
  let x := s.site k
  let walks := x.st == .run || x.st == .hold || x.st == .starved || x.st == .drain
  seqCode x.st + 256 * s.siteFn k + 2 ^ 16 * (if walks then (s.site (s.leadSite k)).seg % 2 ^ 16 else 0xFFFF)

def State.cvValue (s : State) (a : Nat) : Nat :=
  let o := a - 0x10000
  if o = 0 then s.cfg.commitSeq
  else if o = 4 then
    b2n s.cfg.warm + 2 * b2n (match s.cfg.pending with | some p => p.prepared.isSome | none => false) + 4 * b2n s.cfg.system.isSome
  else if o = 8 then s.cfg.demand % 2 ^ 32
  else if o = 0xC then s.cfg.budget % 2 ^ 32
  else if 0x20 ≤ o ∧ o < 0x40 then word32 s.cfg.latchedDigest.toNat (o - 0x20)
  else if 0x40 ≤ o ∧ o < 0xC0 then s.cvSite ((o - 0x40) / 4)
  else if 0xC0 ≤ o ∧ o < 0x140 then s.siteMode ((o - 0xC0) / 4)
  else if 0x140 ≤ o ∧ o < 0x1C0 then s.item 5 ((o - 0x140) / 4) % 2 ^ 32
  else if 0x200 ≤ o ∧ o < 0x400 then word32 (s.members ((o - 0x200) / 16)) (o % 16)
  else if 0x400 ≤ o ∧ o < 0x500 then
    s.chanMode ((o - 0x400) / 2) + 2 ^ 16 * s.chanMode ((o - 0x400) / 2 + 1)
  else if o = 0x500 then s.deviceMode
  else 0

/-- What the 32-bit register at an aligned address reads as. A write-only or reserved address reads zero (R452). -/
def State.regValue (s : State) (a : Nat) : Nat :=
  match a / 0x1000 with
  | 0x0 => s.sysValue a
  | 0x1 => s.clkValue a
  | 0x2 => s.hifValue a
  | 0x3 => s.hifValue a
  | 0x4 => s.soValue a
  | 0x5 => s.mcValue a
  | 0x6 => s.couValue a
  | 0x7 => s.ptuValue a
  | 0x8 => s.fcValue a
  | 0x9 => s.calValue a
  | 0xA => s.adcValue a
  | 0xB => s.clerkValue a
  | 0xC => s.cspValue a
  | 0xD => s.secValue a
  | 0xE => s.pecValue a
  | 0xF => s.trgValue a
  | _ => if 0x10000 ≤ a ∧ a < 0x20000 then s.cvValue a else 0

/-! ### What a function may reach (R433, R452, R459) -/

/-- An address of the PF's window is exposed at the present boot stage. -/
def State.exposedPf (s : State) (a : Nat) : Bool :=
  let st := s.boot.stage
  let limited := decide (2 ≤ st) && st != 15
  if s.boot.porLow then false
  else decide (a < 0x1000) || decide (0xD000 ≤ a ∧ a < 0xE000) || st == 5
    || (limited && (a == 0x2000 || a == 0x2004 || decide (0x3000 ≤ a ∧ a < 0x3800)))

/-- The PF window address that an address of a function's window stands for, where it may reach it: a VF's window holds its own
ring-set blocks, the grant field apart. -/
def State.windowAddr (s : State) (fn a : Nat) : Option Nat :=
  if fn = 0 then (if s.exposedPf a then some a else none)
  else
    let k := a / 64
    if k < 64 ∧ s.rsFn k = fn ∧ a % 64 / 4 * 4 ≠ 0x34 ∧ s.exposedPf (0x3000 + a) then some (0x3000 + a) else none

/-! ### Reads that act (R315, R390, R454, R465) -/

/-- A read-to-clear register (Tables 11.3, 12.5, 13.9, 14.3, 15.8, 16.8, 17.5, 18.6, 21.4, 21.8 to 21.10). -/
def isRc (a : Nat) : Bool :=
  a == 0x1008 || decide (0x1400 ≤ a ∧ a < 0x1800) || (decide (0x3000 ≤ a ∧ a < 0x4000) && a % 64 == 0x2C) || a == 0x4008
    || decide (0x5050 ≤ a ∧ a < 0x5070)
    || (decide (0x6000 ≤ a ∧ a < 0x6400) && (decide (0x0C ≤ a % 256 ∧ a % 256 < 0x28) || decide (0x38 ≤ a % 256 ∧ a % 256 < 0x48)))
    || a == 0x706C || decide (0x9100 ≤ a ∧ a < 0x9300) || a == 0xA018 || a == 0xB018 || a == 0xB01C || a == 0xB028 || a == 0xB02C
    || a == 0xC00C || a == 0xC010 || (decide (0xE000 ≤ a ∧ a < 0xE400) && (a % 64 == 4 || a % 64 == 8))
    || decide (0xF040 ≤ a ∧ a < 0xF0C0)

/-- Count events that arrive in the cycle of the read: a register of two halves counts in its low half. -/
def State.rcArrive (s : State) (a n : Nat) : State := if a % 4 = 0 then s.setRc a (satAdd 32 0 n) else s

/-- The counts that a read of an address takes in have been brought up to the moment of the read. -/
def State.settleFor (s : State) (a : Nat) : State :=
  if 0x6000 ≤ a ∧ a < 0x6400 then s.settleInject ((a - 0x6000) / 256)
  else if 0x9100 ≤ a ∧ a < 0x9300 then s.settleLoop ((a - 0x9100) / 32)
  else if 0x8000 ≤ a ∧ a < 0x9000 then s.recurLevels
  else s

/-- READ_CLEAR: the read returns the count; the register then holds what arrived in that cycle (R454). -/
def execReadClear (addr arriving : Nat) (s : State) : Host.Outcome State Fault Refusal :=
  if !isRc addr || !s.exposedPf addr then .next (s.emit (.readValue addr 0))
  else
    let s := s.settleFor addr
    let v := s.regValue addr
    .next ((s.rcArrive addr arriving).emit (.readValue addr v))

/-- A read of SYS_CV_COMMIT_SEQ latches the digest (R465). -/
def State.latchDigest (s : State) : State := { s with cfg := { s.cfg with latchedDigest := s.digest } }

/-- SYS_CV_COMMIT_SEQ_READ: only the PF reads the view, and only from READY on (R464). -/
def execSysCvCommitSeqRead (s : State) : Host.Outcome State Fault Refusal :=
  if s.boot.stage ≠ 5 then .next (s.emit (.readValue 0x10000 0))
  else .next (s.latchDigest.emit (.readValue 0x10000 s.cfg.commitSeq))

/-- A 32-bit read over the register bus with what it does: it clears, captures, freezes or latches (R467). -/
def State.readAct (s : State) (a : Nat) : State × Nat :=
  let s := s.settleFor a
  let v := s.regValue a
  let s := if isRc a then s.setRc a 0
    else if a = 0x7010 then s.setPtu { s.ptu with captured := some (s.ptuNow % tuPerSec, s.ptuNow / tuPerSec % 2 ^ 48) }
    else if a = 0x701C then s.setPtu { s.ptu with captured := none }
    else if a = 0xA020 then { s with adc := { s.adc with frozen := tset none s.adc.frozen 0 (some (s.adcLatest 0)) } }
    else if a = 0xA028 then { s with adc := { s.adc with frozen := tset none s.adc.frozen 1 (some (s.adcLatest 1)) } }
    else if a = 0xA038 then { s with adc := { s.adc with frozen := tset none s.adc.frozen 2 (some (s.adcLatest 2)) } }
    else if a = 0xA024 then { s with adc := { s.adc with frozen := tset none s.adc.frozen 0 none } }
    else if a = 0xA02C then { s with adc := { s.adc with frozen := tset none s.adc.frozen 1 none } }
    else if a = 0xA03C then { s with adc := { s.adc with frozen := tset none s.adc.frozen 2 none } }
    else if a = 0x10000 then s.latchDigest
    else s
  (s, v)

end Sys2Proof.Machine
end

