-- ==== Sys2Proof/Machine/RegWrite.lean ====
section
/-! DEFINITION. What a write does to the registers of the set-up window (Tables 11.2 to 11.4, 12.5, 13.9, 13.10, 14.3, 14.4, 15.8, 15.9,
16.8, 16.9, 17.5, 18.6, 19.5, 19.6, 20.11, 21.2 to 21.7), field by field (R453). A write to a register whose action has a row of its own
has that row's effect. Addresses are those of the PF's window. -/

namespace Sys2Proof.Machine

/-- The state an outcome leads to. -/
def nextOr (s : State) : Host.Outcome State Fault Refusal → State
  | .next t => t
  | _ => s

/-- A field of a register takes a value where it is in range (R453). -/
def State.putReg (s : State) (a lo w x : Nat) (ok : Bool) : State := if ok then s.setReg a (putFld (s.reg a) lo w x) else s

/-- A whole-register field of `w` bits with a range. -/
def State.regRange (s : State) (a w lo hi v : Nat) : State := s.putReg a 0 w v (decide (lo ≤ fld v 0 w) && decide (fld v 0 w ≤ hi))

/-- A register whose `w` low bits take any value. -/
def State.regMask (s : State) (a w v : Nat) : State := s.setReg a (fld v 0 w)

/-- A bit of a command register, if set, does something. -/
def onBit (v i : Nat) (s : State) (f : State → Host.Outcome State Fault Refusal) : State := if v.testBit i then nextOr s (f s) else s

/-! ### Block by block: 32-bit registers -/

def State.writeSys (s : State) (a v : Nat) : State :=
  if a = 0x10 then nextOr s (execSysResetDevice (BitVec.ofNat 16 (v / 2 ^ 16)) (v.testBit 0) s)
  else if a = 0x14 then s.regMask a 32 v
  else s

def State.writeClk (s : State) (a v : Nat) : State := if a = 0x1004 then s.regMask a 1 v else s

/-- The sites whose SITES bit has changed and that are IDLE: their grant changes at once (R236). -/
def State.applyIdleGrants (s : State) : State :=
  (List.range 32).foldl (fun (s : State) k =>
    if s.siteTarget k != s.siteFn k && (s.site k).st == .idle then s.applyGrant k else s) s

/-- A VF's SITES word is written; a change that was pending and whose site has reached IDLE is applied first, with its event. -/
def State.writeSites (s : State) (a v : Nat) : State :=
  (((List.finRange 32).foldl (fun (s : State) k => nextOr s (execGrantApplied k s)) s).regMask a 32 v).applyIdleGrants

/-- HIF_RS_CTRL_k: STREAM_RING while DISABLED, then ENABLE (R239, R240). -/
def State.writeRsCtrl (s : State) (k v : Nat) : State :=
  let a := aRs k 0x20
  let s := s.putReg a 1 1 (b2n (v.testBit 1)) ((s.rs k).st == .disabled)
  if v.testBit 0 == (s.reg a).testBit 0 then s else if v.testBit 0 then s.enableRs k else s.shutdownRs k

/-- HIF_RS_LENGTHS_k while DISABLED: each field within 6 to 16 (R239). -/
def State.writeRsLengths (s : State) (k v : Nat) : State :=
  if (s.rs k).st != .disabled then s
  else
    (List.range 4).foldl (fun (s : State) r =>
      let x := fld v (8 * r) 5
      s.putReg (aRs k 0x30) (8 * r) 5 x (decide (6 ≤ x) && decide (x ≤ 16))) s

def State.writeHif (s : State) (a v : Nat) : State :=
  if a = aEvtVector then s.regMask a 8 v
  else if 0x2400 ≤ a ∧ a < 0x2800 then
    (match (a - 0x2400) % 32 with
     | 0 => s.writeSites a v
     | 4 => s.regMask a 32 v
     | _ => s)
  else if 0x3000 ≤ a ∧ a < 0x4000 then
    let k := (a - 0x3000) / 64
    (match a % 64 with
     | 0x20 => s.writeRsCtrl k v
     | 0x28 => s.regMask a 32 v
     | 0x30 => s.writeRsLengths k v
     | 0x34 => s.putReg a 0 6 v (decide (32 ≤ k) && decide (fld v 0 6 ≤ 32) && (s.rs k).st == .disabled)
     | _ => s)
  else s

def State.writeSo (s : State) (a v : Nat) : State :=
  if a = aDelayTick then s.regRange a 16 1 65535 v
  else if 0x4010 ≤ a ∧ a < 0x4090 then s.regRange a 13 16 4080 v
  else s

def State.writeMc (s : State) (a v : Nat) : State :=
  if a = aMcCtrl then s.setReg a (v &&& 0x1FFF1)
  else if a = aMcIdle then s.regRange a 11 8 1024 v
  else if a = 0x500C then
    let s := onBit v 0 s (execMcCmdMigrate (Fin.ofNat 4 (fld v 4 2)) (Fin.ofNat 4 (fld v 2 2)))
    onBit v 8 s execMcCmdClearCounters
  else if a = 0x5074 then s.regMask a 8 v
  else s

/-- Every Courier port is DOWN. -/
def State.portsDown (s : State) : Bool := (List.range 4).all (fun p => (s.port p).st == .down)

/-- COU_CTRL_p. -/
def State.writeCouCtrl (s : State) (p : Fin 4) (v : Nat) : State :=
  let a := aCou p.val 0
  let s := s.putReg a 1 1 (b2n (v.testBit 1)) true
  if v.testBit 0 == (s.reg a).testBit 0 then s
  else if v.testBit 0 then nextOr s (execCouCtrlEnableSet p s)
  else nextOr s (execCouCtrlEnableClear p s)

/-- COU_CMD_p: its bits act from the lowest. -/
def State.writeCouCmd (s : State) (p : Fin 4) (v : Nat) : State :=
  let s := onBit v 0 s (execCouCmdTest p)
  let s := onBit v 1 s (execCouCmdTestExit p)
  let s := onBit v 2 s (execCouCmdRetrain p)
  let s := onBit v 3 s (execCouCmdInjectFrank p)
  let s := onBit v 4 s (execCouCmdBitSlip p (Fin.ofNat 4 (fld v 5 2)))
  onBit v 7 s (execCouCmdInjectOnce p)

/-- COU_TEST_p: LOOP and PATTERN to 4. -/
def State.writeCouTest (s : State) (a v : Nat) : State :=
  let p := (a - 0x6000) / 256
  let s := s.settleInject p
  let s := s.putReg a 0 3 v (decide (fld v 0 3 ≤ 4))
  let s := s.putReg a 3 1 (fld v 3 1) true
  let s := s.putReg a 4 3 (fld v 4 3) (decide (fld v 4 3 ≤ 4))
  let s := s.putReg a 7 5 (fld v 7 5) true
  if (s.port p).st == .test then s.startPattern p else s

def State.writeCou (s : State) (a v : Nat) : State :=
  if a = aCouMode then (if s.portsDown then s.regMask a 1 v else s)
  else if a < 0x6400 then
    let p : Fin 4 := Fin.ofNat 4 ((a - 0x6000) / 256)
    (match a % 256 with
     | 0x00 => s.writeCouCtrl p v
     | 0x08 => s.writeCouCmd p v
     | 0x28 => s.writeCouTest a v
     | 0x2C => (s.settleInject p.val).regMask a 16 v
     | 0x48 => nextOr s (execCouEyeWrite p (BitVec.ofNat 32 v) s)
     | _ => s)
  else s

/-- The source of a domain has changed: it starts anew; the state follows the source in force (R324, R327). -/
def State.sourceChanged (s : State) (b : Bool) : State :=
  let s := s.setDomain b Domain.reset
  if b != s.activeB || s.role == 2 || !s.ptu.started then s
  else if s.sourceOf b = 0 then (if s.ptu.st == .holdover then s.leaveHoldover else s.setPtu { s.ptu with st := .locked })
  else if s.ptu.stepped then s.enterHoldover
  else s.setPtu { s.ptu with st := .locking }

/-- PTU_CTRL: 3 is reserved in both source fields; on a Postmaster a write that leaves DUAL set with one source for both domains, or
free-run for domain B, is ignored whole (R327, Table 14.4). -/
def State.writePtuCtrl (s : State) (v : Nat) : State :=
  let old := s.reg aPtuCtrl
  let a := if fld v 0 2 = 3 then fld old 0 2 else fld v 0 2
  let b := if fld v 2 2 = 3 then fld old 2 2 else fld v 2 2
  if s.role == 1 && v.testBit 4 && (a == b || b == 0) then s
  else
    let s := s.setReg aPtuCtrl (putFld (putFld (v &&& 0x7B0) 0 2 a) 2 2 b)
    let s := if a ≠ fld old 0 2 then s.sourceChanged false else s
    let s := if b ≠ fld old 2 2 then s.sourceChanged true else s
    (onBit v 6 s execPtuCtrlSwitch).autoSwitch

/-- PTU_GEN_CTRL_g: COUNT while ARM is clear, then ARM (R333). -/
def State.writeGenCtrl (s : State) (g : Fin 8) (v : Nat) : State :=
  let armed := (s.gen g.val).arm
  let s := s.putReg (aGen g.val 0x18) 16 16 (fld v 16 16) (!armed)
  if v.testBit 0 then nextOr s (execPtuGenCtrlArm g s)
  else if armed then s.setGen g.val { s.gen g.val with arm := false }
  else s

def State.writePtu (s : State) (a v : Nat) : State :=
  if a = aPtuCtrl then s.writePtuCtrl v
  else if 0x7030 ≤ a ∧ a < 0x7040 then s.regMask a 16 v
  else if a = aMatchSel then s.regRange a 8 1 255 v
  else if a = 0x7064 then nextOr s (execPtuMatchCfgWrite (BitVec.ofNat 10 v) s)
  else if 0x7080 ≤ a ∧ a < 0x7180 ∧ a % 32 = 24 then s.writeGenCtrl (Fin.ofNat 8 ((a - 0x7080) / 32)) v
  else s

/-- FC_SRC_n: codes 6 and 7 are out of range; for class FATAL a write of a code below 5 is ignored whole (R423, R453). -/
def State.writeFcSrc (s : State) (n : Fin 96) (v : Nat) : State :=
  let code := fld v 0 3
  if faultClass n.val = 4 ∧ code < 5 then s
  else
    let s := s.putReg (aFcSrc n.val) 0 3 code (decide (code ≤ 5))
    let s := s.putReg (aFcSrc n.val) 3 1 (fld v 3 1) true
    (onBit v 7 s (execFcSrcClrRec n)).noteStatus

/-- One command per set bit of a word of the three-word arrays. -/
def State.eachSource (s : State) (w v : Nat) (f : Fin 96 → State → Host.Outcome State Fault Refusal) : State :=
  (bitsOf 32 v).foldl (fun (s : State) i => nextOr s (f (Fin.ofNat 96 (32 * w + i)) s)) s

def State.writeFc (s : State) (a v : Nat) : State :=
  if a < 0x800C then nextOr s (execFcStickyClear (Fin.ofNat 3 ((a - 0x8000) / 4)) (BitVec.ofNat 32 v) 0 s)
  else if 0x8040 ≤ a ∧ a < 0x804C then s.eachSource ((a - 0x8040) / 4) v (fun n => execFcInject n false)
  else if 0x8050 ≤ a ∧ a < 0x805C then s.eachSource ((a - 0x8050) / 4) v (fun n => execFcRelease n false)
  else if 0x8060 ≤ a ∧ a < 0x8074 then s.regMask a 16 v
  else if a = 0x8080 then nextOr s (execFcLogSel (Fin.ofNat 64 (fld v 0 6)) s)
  else if 0x8200 ≤ a ∧ a < 0x8380 then s.writeFcSrc (Fin.ofNat 96 ((a - 0x8200) / 4)) v
  else s

/-- CAL_LOOP_CTRL_g: the path, pattern, rate and injection, then RUN, then INJECT_ONCE (R381, R382). -/
def State.writeLoopCtrl (s : State) (g : Fin 16) (v : Nat) : State :=
  let a := aCalLoopCtrl g.val
  let s := s.settleLoop g.val
  let s := s.putReg a 1 6 (fld v 1 6) true
  let s := s.putReg a 8 1 (fld v 8 1) true
  let s := s.putReg a 16 16 (fld v 16 16) true
  let s := if v.testBit 0 then nextOr s (execCalLoopRunSet g s) else nextOr s (execCalLoopRunClear g s)
  onBit v 7 s (execCalLoopInjectOnce g)

/-- CAL_SCRIPT_k, in the layout of Table 8.4: COUNT to 63, CLK_DIV from 4, BITS 1 to 32. -/
def State.writeCalScript (s : State) (a v : Nat) : State :=
  let o := a % 0x200
  if o = 0 then
    let s := s.putReg a 0 16 v (decide (fld v 0 16 ≤ 63))
    let s := s.putReg a 16 1 (fld v 16 1) true
    s.putReg a 24 8 (fld v 24 8) (decide (4 ≤ fld v 24 8))
  else if o = 4 then s
  else if o % 8 = 0 then s.regMask a 32 v
  else
    let s := s.putReg a 0 8 v (decide (1 ≤ fld v 0 8) && decide (fld v 0 8 ≤ 32))
    let s := s.putReg a 8 2 (fld v 8 2) true
    s.putReg a 16 16 (fld v 16 16) true

def State.writeCal (s : State) (a v : Nat) : State :=
  if a = aCalCtrl then s.regMask a 5 v
  else if a = aCalDt then s.regRange a 8 2 128 v
  else if a = aCalMaxAge then s.regMask a 16 v
  else if a = 0x9018 ∨ a = 0x902C ∨ a = 0x9030 then s.regMask a 24 v
  else if a = 0x901C then s.regRange a 9 1 320 v
  else if a = 0x9020 then s.regMask a 10 v
  else if a = 0x9024 then s.regMask a 32 v
  else if a = 0x9028 then s.regMask a 1 v
  else if a = 0x9034 then s.regMask a 18 v
  else if a = 0x9040 then onBit v 1 (onBit v 0 s (execCalCmdStore 0)) execCalCmdRestorePrev
  else if 0x90C0 ≤ a ∧ a < 0x9100 then nextOr s (execCalGroupCtrlSleep (Fin.ofNat 16 ((a - 0x90C0) / 4)) (v.testBit 0) s)
  else if 0x9300 ≤ a ∧ a < 0x9340 then s.writeLoopCtrl (Fin.ofNat 16 ((a - 0x9300) / 4)) v
  else if a = 0x9340 then (s.putReg a 0 8 v (decide (fld v 0 8 ≤ 143))).putReg a 8 5 (fld v 8 5) true
  else if 0x9800 ≤ a ∧ a < 0xA000 then s.writeCalScript a v
  else s

/-- The channels ADC_HK_SEL names (Table 17.5). -/
def hkChannel (c : Nat) : Bool := c == 0 || (decide (33 ≤ c) && decide (c ≤ 56)) || c == 58

def State.writeAdc (s : State) (a v : Nat) : State :=
  match a with
  | 0xA000 => s.regMask a 1 v
  | 0xA008 => onBit v 1 (onBit v 0 s execAdcCmdRetestA) execAdcCmdRetestB
  | 0xA00C => s.regMask a 16 v
  | 0xA010 => s.regMask a 21 v
  | 0xA014 => s.regMask a 16 v
  | 0xA030 => s.putReg a 0 6 v (hkChannel (fld v 0 6))
  | _ => s

/-- The Clerk's registers, CLERK_CMD apart (bits 7 to 9 of the capabilities read zero). -/
def State.writeClerk (s : State) (a v : Nat) : State :=
  match a with
  | 0xB004 => s.regMask a 1 v
  | 0xB008 => s.setReg a (v &&& 0x47F)
  | 0xB00C => s.regRange a 16 1 65535 v
  | 0xB010 => s.regRange a 16 1 65535 v
  | _ => s

/-- SEC_CMD; whether OTP programming succeeds is a free value (notes/assumptions/34.md). -/
def State.writeSecCmd (s : State) (v : Nat) : State :=
  let ok := s.free 34 % 2 == 0
  let s := s.drawn
  let slot : Fin 4 := Fin.ofNat 4 (fld v 2 2)
  nextOr s (match fld v 0 2 with
    | 0 => execProgramRoot slot ok s
    | 1 => execRevoke slot ok s
    | 2 => execAdvance (BitVec.ofNat 7 (fld v 8 7)) ok s
    | _ => execProdLock ok s)

def State.writeSec (s : State) (a v : Nat) : State :=
  if a = 0xD018 then nextOr s (execSecArm (BitVec.ofNat 16 v) s)
  else if a = 0xD01C then s.writeSecCmd v
  else if 0xD040 ≤ a ∧ a < 0xD060 then s.regMask a 32 v
  else s

/-- A write of a whole 32-bit register. -/
def State.write32 (s : State) (a v : Nat) : State :=
  match a / 0x1000 with
  | 0x0 => s.writeSys a v
  | 0x1 => s.writeClk a v
  | 0x2 => s.writeHif a v
  | 0x3 => s.writeHif a v
  | 0x4 => s.writeSo a v
  | 0x5 => s.writeMc a v
  | 0x6 => s.writeCou a v
  | 0x7 => s.writePtu a v
  | 0x8 => s.writeFc a v
  | 0x9 => s.writeCal a v
  | 0xA => s.writeAdc a v
  | 0xB => s.writeClerk a v
  | 0xD => s.writeSec a v
  | _ => s

/-! ### 64-bit registers (R451) -/

/-- A ring's base, or the write-back area's: while ENABLED a ring's is held as its next base (R239). -/
def State.writeRsWide (s : State) (k o v : Nat) : State :=
  if o = 0x18 then s.setReg64 (aRs k o) (v / 64 * 64)
  else if o = 0x38 ∧ k ≠ 0 then s
  else
    let r := if o = 0x38 then 3 else o / 8
    let b := v / 4096 * 4096
    match (s.rs k).st with
    | .disabled => s.setReg64 (aRs k o) b
    | .enabled => s.modRs k (fun x => { x with nextBase := tset none x.nextBase r (some (BitVec.ofNat 64 b)) })
    | .shuttingDown => s

/-- START and PERIOD of a generator, ignored while it is armed; a START_TU of 1 s or more is out of range (R313, R333). -/
def State.writeGenWide (s : State) (lo v : Nat) : State :=
  let g := (lo - 0x7080) / 32
  if (s.gen g).arm then s
  else
    match lo % 32 with
    | 0 => s.setReg64 lo (fld v 0 48)
    | 8 => if fld v 0 43 < tuPerSec then s.setReg64 lo (fld v 0 43) else s
    | _ => s.setReg64 lo v

/-- A write of a whole 64-bit register; `lo` is the address of its low half. -/
def State.writeWide (s : State) (lo v : Nat) : State :=
  if 0x2400 ≤ lo ∧ lo < 0x2800 then s.setReg64 lo (fld v 0 40)
  else if 0x3000 ≤ lo ∧ lo < 0x4000 then s.writeRsWide ((lo - 0x3000) / 64) (lo % 64) v
  else if 0x6000 ≤ lo ∧ lo < 0x6400 then s.setReg64 lo v
  else if lo = aPtuHostSec then s.setReg64 lo (fld v 0 48)
  else if lo = 0x7028 then nextOr s (execPtuHostOfsTuWrite (BitVec.ofNat 64 v) s)
  else if 0x7080 ≤ lo ∧ lo < 0x7180 then s.writeGenWide lo v
  else s

/-- The block of an address, by number; HIF spans two pages. -/
def blockOf (a : Nat) : Nat := if a / 0x1000 = 3 then 2 else a / 0x1000

/-- What low half a block holds. -/
def State.heldOf (s : State) (b : Nat) : Option (Nat × W32) := tget none s.hif.heldLow b

def State.setHeld (s : State) (b : Nat) (x : Option (Nat × W32)) : State :=
  { s with hif := { s.hif with heldLow := tset none s.hif.heldLow b x } }

/-- The low half that goes with a write to the high half: the held one, else the register's own (a WO register's is zero). -/
def State.lowFor (s : State) (lo : Nat) : Nat :=
  match s.heldOf (blockOf lo) with
  | some (a, w) => if a = lo then w.toNat else s.regValue lo
  | none => s.regValue lo

/-- A 4-byte write at an aligned address (R451, R453). -/
def State.busWrite (s : State) (a v : Nat) : State :=
  match wideLow a with
  | none => (s.setHeld (blockOf a) none).write32 a v
  | some lo =>
    if a = lo then s.setHeld (blockOf a) (some (lo, BitVec.ofNat 32 v))
    else
      let low := s.lowFor lo
      (s.setHeld (blockOf a) none).writeWide lo (low + 2 ^ 32 * v)

/-- An 8-byte write at an aligned address: a 64-bit register takes it whole, two registers as two writes (R450, R451). -/
def State.busWrite8 (s : State) (a v : Nat) : State :=
  if wideLow a = some a then (s.setHeld (blockOf a) none).writeWide a v
  else (s.busWrite a (v % 2 ^ 32)).busWrite (a + 4) (v / 2 ^ 32)

end Sys2Proof.Machine
end

