-- ==== Sys2Proof/Machine/Clerk.lean ====
section
/-! DEFINITION. The Clerk microengine (chapter 18): contexts, microwords and their control fields, safe points, journals and aborts,
customer routines and their capabilities, the control store's errors and the live bank swap. -/

namespace Sys2Proof.Machine

/-- One CLK_CORE cycle. -/
def tuPerCycle : Nat := 8000

def State.setClerk (s : State) (c : Clerk) : State := { s with clerk := c }
def State.modCtx (s : State) (k : Nat) (f : Ctx → Ctx) : State := s.setCtx k (f (s.ctx k))

/-- A word of the active bank. -/
def State.clerkWord (s : State) (pc : Nat) : Nat := (tget 0 s.clerk.words (b2n s.clerk.active * 8192 + pc)).toNat

/-! ### Control fields (Table 18.2) -/

def cwSafe (w : Nat) : Bool := w.testBit 127
def cwJrnl (w : Nat) : Bool := w.testBit 126
def cwEntry (w : Nat) : Bool := w.testBit 125
def cwNoAbort (w : Nat) : Bool := w.testBit 124
def cwSeq (w : Nat) : Nat := fld w 120 4
def cwTarget (w : Nat) : Nat := fld w 107 13

/-! ### Contexts (R403, R404) -/

/-- Priority of a context: 0 to 5 their own number, 6 to 9 one priority (Table 18.3). -/
def ctxPrio (k : Nat) : Nat := min k 6

/-- Of two contexts, the one that runs first: the higher priority, then the one that became ready first. -/
def State.ctxFirst (s : State) (a b : Nat) : Nat :=
  if ctxPrio b < ctxPrio a then b
  else if ctxPrio a < ctxPrio b then a
  else if (s.ctx b).readySeq < (s.ctx a).readySeq then b
  else a

/-- The ready context of the highest priority. -/
def State.bestCtx (s : State) : Option Nat :=
  match (List.range 10).filter (fun k => (s.ctx k).isReady) with
  | [] => none
  | k :: ks => some (ks.foldl s.ctxFirst k)

/-- At a safe point or a routine's end the highest-priority ready context runs; its count starts afresh (R404, R405). -/
def State.pickContext (s : State) : State :=
  let best := s.bestCtx
  s.setClerk { s.clerk with
    running := best, sinceSafe := if best = s.clerk.running then s.clerk.sinceSafe else 0
    reqAt := if best.isNone then none else s.clerk.reqAt }

/-- A request to the running routine waits for its next safe point. -/
def State.noteRequest (s : State) : State :=
  if s.clerk.running.isSome && s.clerk.reqAt.isNone then s.setClerk { s.clerk with reqAt := some s.now } else s

/-- A context becomes ready. -/
def State.readyCtx (s : State) (k : Nat) : State :=
  let s := s.modCtx k (fun x => { x with isReady := true, waiting := false, readySeq := s.clerk.readySeq })
  s.setClerk { s.clerk with readySeq := s.clerk.readySeq + 1 }

/-- The engine stands at a safe point, or holds no routine. -/
def State.atSafePoint (s : State) : Bool := s.clerk.running.isNone || s.clerk.sinceSafe == 0

/-- Contexts have become ready: one of a higher priority runs at once at a safe point, else it waits for the next. -/
def State.reschedule (s : State) : State :=
  if s.atSafePoint then s.pickContext else if s.bestCtx != s.clerk.running then s.noteRequest else s

/-! ### Ends and aborts (R406 to R410) -/

/-- A routine ends: its context is free, its task completes, the engine goes on. -/
def State.endRoutine (s : State) (k status result : Nat) : State :=
  let x := s.ctx k
  let s := s.setCtx k { Ctx.reset with entry := x.entry }
  let s := if s.clerk.running = some k then s.setClerk { s.clerk with running := none, sinceSafe := 0, reqAt := none } else s
  let s := match x.task with | some id => s.completeId id status result | none => s
  if s.clerk.running.isNone then s.pickContext else s

/-- JOURNAL_UNDO: the journal's entries are written back, newest first (R407). -/
def State.undoJournal (s : State) (k : Nat) : State :=
  (s.ctx k).journal.foldl (fun (s : State) e => s.busWrite e.1 e.2.toNat) s

/-- An abortable routine is aborted: its journal is undone, CLERK_ABORTS counts, its task completes with the cause's status (R408). -/
def State.abortRoutine (s : State) (k status : Nat) : State :=
  ((s.undoJournal k).rcAdd aClerkAborts 1).endRoutine k status 0

/-- Something struck a routine: an abortable one is aborted; one with NOABORT stops with no undo, and source 86 asserts (R409). -/
def State.strike (s : State) (k status : Nat) : State :=
  let x := s.ctx k
  if x.noAbort then (s.fault 86 x.entry).endRoutine k status 0 else s.abortRoutine k status

/-- The watchdog stops the routine and source 86 asserts (R406). -/
def State.watchdog (s : State) (k : Nat) : State :=
  let x := s.ctx k
  let s := s.fault 86 x.entry
  if x.noAbort then s.endRoutine k 12 0 else s.abortRoutine k 12

/-- An abort request to a routine: taken at once where it stands at a safe point, else at its next one; a routine with NOABORT holds it
until it ends (R408, R409). -/
def State.requestAbort (s : State) (k status : Nat) : State :=
  let x := s.ctx k
  if !x.busy || x.abortReq.isSome then s
  else if !x.noAbort && (s.clerk.running != some k || s.clerk.sinceSafe == 0) then s.abortRoutine k status
  else (s.setCtx k { x with abortReq := some status }).noteRequest

/-! ### Starts (R401, R410, R413) -/

/-- The routine of a context begins, its entry having been found good. -/
def State.beginRoutine (s : State) (k : Nat) : State :=
  let x := s.ctx k
  let w := s.clerkWord x.entry
  let s := s.setCtx k { x with
    busy := true, held := false, pc := x.entry, stack := [], journal := [], noAbort := cwNoAbort w && decide (x.entry < 6144)
    startAt := s.now, abortReq := none, waiting := false }
  (s.readyCtx k).reschedule

/-- A context takes a start, which a pending swap holds; a routine whose entry lies in a bad block, or on a word without ENTRY, does
not run. -/
def State.startRoutine (s : State) (k : Nat) : State :=
  let x := s.ctx k
  if s.clerk.swapPending.isSome then s.setCtx k { x with held := true }
  else if x.entry / 64 ∈ s.clerk.badBlocks then s.endRoutine k 6 0
  else if !cwEntry (s.clerkWord x.entry) then s.endRoutine k 3 0
  else s.beginRoutine k

/-- The eight arguments of a call in G0 to G7. -/
def argRegs (args : List Nat) : Tab (BitVec 64) :=
  ((List.range 8).zip args).foldl (fun t e => tset 0 t e.1 (BitVec.ofNat 64 (e.2 % 2 ^ 32))) []

/-- A free context of the four that serve CLERK_CALL. -/
def State.freeCustomer (s : State) : Nat :=
  ([6, 7, 8, 9].find? (fun k => !(s.ctx k).busy && !(s.ctx k).held)).getD 9

/-- CLERK_CALL at its engine. -/
def engineClerkCall (entry : Nat) (args : List Nat) (t : Task) (s : State) : State :=
  let k := s.freeCustomer
  let s := s.setCtx k { Ctx.reset with entry := entry % 8192, g := argRegs args, customer := true, task := some t.id }
  s.startRoutine k

/-- CLERK_CALL. -/
def execClerkCall (h : Hdr) (entry : Nat) (args : List Nat) (s : State) : Host.Outcome State Fault Refusal :=
  .next (serve h (.clerkCall entry args) (engineClerkCall entry args) s)

/-- Starts that a swap held begin, in the bank that is active now (R413). -/
def State.startHeld (s : State) : State :=
  (List.range 10).foldl (fun (s : State) k => if (s.ctx k).held then s.startRoutine k else s) s

/-! ### Capabilities (R411) -/

/-- The capability bit that a write to a block needs; none where writes are never open to customer routines. -/
def writeCap (a : Nat) : Option Nat :=
  match a / 0x1000 with
  | 0xA => some 1
  | 0xE => some 2
  | 0xF => some 3
  | 0x9 => some 4
  | 0x7 => some 5
  | 0x6 => some 6
  | 0x5 => some 7
  | 0x8 => some 8
  | 0xD => some 9
  | _ => none

/-- A customer routine holds a capability. -/
def State.holdsCap (s : State) (bit : Nat) : Bool := (s.reg aCustCaps).testBit bit

/-- A customer routine may write to an address. -/
def State.mayWrite (s : State) (a : Nat) : Bool := match writeCap a with | some bit => s.holdsCap bit | none => false

/-- A customer routine may read an address: SEC needs bit 9, the trims bit 4. -/
def State.mayRead (s : State) (a : Nat) : Bool :=
  if a / 0x1000 = 0xD then s.holdsCap 9 else s.holdsCap 0 && (a != 0x9344 || s.holdsCap 4)

/-- The operation breaks the routine's capabilities, at this address. -/
def State.violation (s : State) (x : Ctx) (op : ClerkOp) : Option Nat :=
  if !x.customer then none
  else
    match op with
    | .read _ a => if s.mayRead a then none else some a
    | .write a _ => if s.mayWrite a then none else some a
    | _ => none

/-! ### Microwords (R400 to R402, R405 to R407) -/

/-- The word of a bank that an uncorrectable error struck: counted, kept in CLERK_BAD_WORD, source 85; in the inactive bank that bank is
BAD, in the active one its block starts nothing more (R401). -/
def State.noteBadWord (s : State) (bank : Bool) (word : Nat) : State :=
  let s := s.rcAdd aClerkUncorr 1
  let c := s.clerk
  let s := s.setClerk { c with
    badWord := some (bank, word)
    inactive := if bank != c.active then .bad else c.inactive
    badBlocks := if bank == c.active && !(word / 64 ∈ c.badBlocks) then (word / 64) :: c.badBlocks else c.badBlocks }
  s.fault 85 (b2n bank + 2 ^ 8 * word)

/-- The decoder of a control-store word corrects one or two bit errors; more it cannot place (R400). -/
def wordCorrected (bitErrors : Nat) : Bool := bitErrors == 1 || bitErrors == 2
def wordLost (bitErrors : Nat) : Bool := decide (2 < bitErrors)

/-- A word was corrected (R401). -/
def State.noteCorrected (s : State) : State := (s.rcAdd aClerkCorr 1).fault 84 0

/-- A journaled write that finds the journal full is not performed (R407). -/
def journalFull (x : Ctx) (w : Nat) (op : ClerkOp) : Bool :=
  match op with
  | .write .. => cwJrnl w && decide (16 ≤ x.journal.length)
  | _ => false

/-- The operation of a word of context k, permitted. -/
def State.clerkOp (s : State) (k w : Nat) (op : ClerkOp) : State :=
  match op with
  | .none => s
  | .set dst v => s.modCtx k (fun x => { x with g := tset 0 x.g dst.val v })
  | .read dst a =>
    let (s, v) := s.readAct (a / 4 * 4)
    s.modCtx k (fun x => { x with g := tset 0 x.g dst.val (BitVec.ofNat 64 v) })
  | .write a v =>
    let a := a / 4 * 4
    let old := s.regValue a
    let s := s.busWrite a v.toNat
    if cwJrnl w then s.modCtx k (fun x => { x with journal := (a, BitVec.ofNat 32 old) :: x.journal }) else s

/-- The stack from its newest return address on. -/
def popReturn : List ClerkFrame → Option (Nat × List ClerkFrame)
  | [] => none
  | .ret pc :: fs => some (pc, fs)
  | .loop _ _ :: fs => popReturn fs

/-- The next word of a context, at the end of its newest loop or not. -/
def nextWord (x : Ctx) (taken : Bool) : Nat × List ClerkFrame :=
  match x.stack with
  | .loop first last :: fs =>
    if x.pc = last then (if taken then (first, x.stack) else (x.pc + 1, fs)) else (x.pc + 1, x.stack)
  | _ => (x.pc + 1, x.stack)

/-- Where a word leads and the stack it leaves; none for an undefined word (Table 18.2, R402). -/
def sequence (x : Ctx) (w : Nat) (taken : Bool) : Option (Nat × List ClerkFrame) :=
  let room := decide (x.stack.length < 8)
  let r : Option (Nat × List ClerkFrame) := match cwSeq w with
    | 1 => some (if taken then (cwTarget w, x.stack) else nextWord x false)
    | 2 => if room then some (cwTarget w, .ret (x.pc + 1) :: x.stack) else none
    | 3 => popReturn x.stack
    | 4 => if room then some (x.pc + 1, .loop (x.pc + 1) (cwTarget w) :: x.stack) else none
    | 0 => some (nextWord x taken)
    | 5 => some (nextWord x taken)
    | _ => none
  match r with
  | some (pc, fs) => if 8192 ≤ pc ∨ (x.customer ∧ pc < 6144) then none else some (pc, fs)
  | none => none

/-- A safe point of the running routine: the wait of a request is measured, a pending abort is taken, and the engine may change
(R404, R405, R408). -/
def State.safePoint (s : State) (k : Nat) : State :=
  let s := match s.clerk.reqAt with
    | some t => s.setRc aClerkWaitMax (min 4095 (max (s.rcOf aClerkWaitMax) ((s.now - t) / tuPerCycle)))
    | none => s
  let s := s.setClerk { s.clerk with sinceSafe := 0, reqAt := none }
  match (s.ctx k).abortReq with
  | some status => if (s.ctx k).noAbort then s.pickContext else s.abortRoutine k status
  | none => s.pickContext

/-- A word that ends neither its routine nor by a strike: operation, sequencing, safe point. -/
def State.retireWord (s : State) (k w : Nat) (op : ClerkOp) (next : Nat × List ClerkFrame) (cycles : Nat) : State :=
  let s := s.clerkOp k w op
  let waits := cwSeq w == 5
  let s := s.modCtx k (fun x => { x with pc := next.1, stack := next.2, waiting := waits, isReady := !waits })
  let s := s.setClerk { s.clerk with sinceSafe := s.clerk.sinceSafe + cycles }
  if waits || cwSafe w then s.safePoint k else s

/-- The word at the program counter of the running context k, with its operation; of two causes to stop, the first in R408's list. -/
def State.runWord (s : State) (k : Nat) (op : ClerkOp) (taken : Bool) (stall : Nat) : State :=
  let x := s.ctx k
  let w := s.clerkWord x.pc
  let cycles := 1 + stall
  let s := s.advance (s.now + cycles * tuPerCycle)
  if cwSeq w = 7 then s.strike k 6
  else
    match s.violation x op with
    | some a => (s.setClerk { s.clerk with viol := a }).abortRoutine k 4
    | none =>
      if journalFull x w op then s.strike k 6
      else if cwSeq w = 6 then
        if 2048 < s.clerk.sinceSafe + cycles then s.watchdog k
        else
          let s := s.clerkOp k w op
          let g := (s.ctx k).g
          s.endRoutine k 0 ((tget 0 g 8).toNat + 2 ^ 64 * (tget 0 g 9).toNat)
      else
        match sequence x w taken with
        | none => s.strike k 6
        | some next => if 2048 < s.clerk.sinceSafe + cycles then s.watchdog k else s.retireWord k w op next cycles

/-- CLERK_MICROWORD: the word at the program counter is fetched, with some bits in error, and runs. -/
def execClerkMicroword (op : ClerkOp) (taken : Bool) (stall dataErrs checkErrs : Nat) (s : State) : Host.Outcome State Fault Refusal :=
  match s.clerk.running with
  | none => .next s
  | some k =>
    if wordLost (dataErrs + checkErrs) then .next ((s.noteBadWord s.clerk.active (s.ctx k).pc).strike k 6)
    else
      let s := if wordCorrected (dataErrs + checkErrs) then s.noteCorrected else s
      .next (s.runWord k op taken stall)

/-- The running context is k, and the word at its program counter sequences so. -/
def State.standsAt (s : State) (k seq : Nat) : Bool := s.clerk.running == some k && cwSeq (s.clerkWord (s.ctx k).pc) == seq

/-- CLERK_WAIT: the running context's WAIT word gives up the engine (R402). -/
def execClerkWait (ctx : Fin 10) (op : ClerkOp) (s : State) : Host.Outcome State Fault Refusal :=
  if s.standsAt ctx.val 5 then .next (s.runWord ctx.val op false 0) else .next s

/-- CLERK_END: the running context's END word ends its routine (R410). -/
def execClerkEnd (ctx : Fin 10) (op : ClerkOp) (s : State) : Host.Outcome State Fault Refusal :=
  if s.standsAt ctx.val 6 then .next (s.runWord ctx.val op false 0) else .next s

/-- CLERK_ABORT: the routine's own ABORT word, or an abort that waits, at a safe point (R408). -/
def execClerkAbort (ctx : Fin 10) (s : State) : Host.Outcome State Fault Refusal :=
  let k := ctx.val
  let x := s.ctx k
  if s.standsAt k 7 then .next (s.runWord k .none false 0)
  else
    match x.abortReq with
    | some status =>
      if x.busy && !x.noAbort && (s.clerk.running != some k || s.clerk.sinceSafe == 0) then .next (s.abortRoutine k status) else .next s
    | none => .next s

/-- CONTEXT_SWITCH: contexts become ready, and at a safe point the highest-priority ready one takes the engine (R404). -/
def execContextSwitch (woken : List (Fin 10)) (started : List (Fin 6 × Fin 8192)) (s : State) : Host.Outcome State Fault Refusal :=
  let s := woken.foldl (fun (s : State) k => if (s.ctx k.val).busy && (s.ctx k.val).waiting then s.readyCtx k.val else s) s
  let s := started.foldl (fun (s : State) e =>
    let x := s.ctx e.1.val
    if x.busy || x.held then s else (s.setCtx e.1.val { Ctx.reset with entry := e.2.val }).startRoutine e.1.val) s
  .next s.reschedule

/-- WATCHDOG_EXPIRY: the running routine reaches its 2,049th cycle without a safe point (R406). -/
def execWatchdogExpiry (s : State) : Host.Outcome State Fault Refusal :=
  match s.clerk.running with
  | none => .next s
  | some k => .next ((s.advance (s.now + (2049 - s.clerk.sinceSafe) * tuPerCycle)).watchdog k)

/-- CUSTOMER_LIMIT_EXPIRY: a customer routine still runs CLERK_CUST_LIMIT ms after its start (R410). -/
def execCustomerLimitExpiry (ctx : Fin 10) (s : State) : Host.Outcome State Fault Refusal :=
  let x := s.ctx ctx.val
  if !x.busy || !x.customer then .next s
  else .next ((s.advance (x.startAt + fld (s.reg aCustLimit) 0 16 * tuPerMs)).requestAbort ctx.val 12)

/-- CLERK_CMD.ABORT_CUSTOMER: every customer routine is aborted at its next safe point (R408). -/
def State.abortCustomers (s : State) : State :=
  [6, 7, 8, 9].foldl (fun (s : State) k => if (s.ctx k).customer then s.requestAbort k 1 else s) s

def execClerkCmdAbortCustomer (s : State) : Host.Outcome State Fault Refusal := .next s.abortCustomers

/-- A bank has been read: its words with bit errors are corrected, or found uncorrectable. -/
def State.scrubBank (s : State) (bank : Bool) (found : List (Fin 8192 × Nat)) : State :=
  found.foldl (fun (s : State) e =>
    if wordLost e.2 then s.noteBadWord bank e.1.val else if wordCorrected e.2 then s.noteCorrected else s) s

/-- CONTROL_STORE_SCRUB: every 64 ticks both banks have been read: words with bit errors are corrected and written back, or found
uncorrectable (R401). -/
def execControlStoreScrub (foundA foundB : List (Fin 8192 × Nat)) (s : State) : Host.Outcome State Fault Refusal :=
  if !(s.reg aClerkCtrl).testBit 0 then .next s
  else .next (((s.periodic 3 (64 * tuPerTick)).scrubBank false foundA).scrubBank true foundB)

/-! ### Live bank swap (R413) -/

/-- Every context stands between routines or in a WAIT. -/
def State.allStand (s : State) : Bool := (List.range 10).all (fun k => !(s.ctx k).busy || (s.ctx k).waiting)

/-- A pending swap ends: held starts begin, and image tasks that waited go on. -/
def State.swapOver (s : State) : State := (s.startHeld).imageWaiters 0

/-- BANK_SWAP: the banks exchange roles, unless the inactive one is no longer VERIFIED or rolls back (R413, R444). -/
def execBankSwap (s : State) : Host.Outcome State Fault Refusal :=
  match s.clerk.swapPending with
  | none => .next s
  | some (id, _) =>
    if !s.allStand then .next s
    else if s.clerk.inactive != .verified || decide (s.inactiveVersion < s.boot.rollback) then
      let status := if s.clerk.inactive != .verified then 4 else 13
      .next ((s.setClerk { s.clerk with swapPending := none }).completeId id status 0).swapOver
    else .next (s.exchangeBanks.bankActivated id).swapOver

/-- SWAP_TIMEOUT: SWAP_PENDING clears, IMAGE_ACTIVATE completes with TIMEOUT, starts resume in the old bank (R413). -/
def execSwapTimeout (s : State) : Host.Outcome State Fault Refusal :=
  match s.clerk.swapPending with
  | none => .next s
  | some (id, due) => .next (((s.advance due).setClerk { s.clerk with swapPending := none }).completeId id 12 0).swapOver

end Sys2Proof.Machine
end

