-- ==== Sys2Proof/Machine/Pci.lean ====
section
/-! DEFINITION. The PCIe functions as the host sees them beside the set-up window: configuration space, SR-IOV, and the windows of Table
11.1 (R2, R231 to R233, R242). -/

namespace Sys2Proof.Machine

/-! ### Configuration space (R2, R232) -/

/-- Where the model's REGISTER_WRITE addresses a function's configuration space, behind the 1 MB window. -/
def pciBase : Nat := 2 ^ 20

def pciVendor : Nat := 0x1F7C
def pciDevice : Nat := 0x5128

/-- The capabilities that R232 names. -/
inductive PciCap where
  | msix
  | aer
  | flr
  | ari
  | sriov
  | serialNumber
  deriving DecidableEq, Repr

/-- The capabilities of a function: a VF's, and two more of the PF. INTx, MSI, ATS, PASID and page requests are in no list. -/
def pciCaps (fn : Nat) : List PciCap := [.msix, .aer, .flr, .ari] ++ (if fn = 0 then [.sriov, .serialNumber] else [])

/-- Largest payload and read request in bytes (R232). -/
def maxPayload : Nat := 512
def maxReadRequest : Nat := 4096

/-- The ordering attributes of every request the device issues: neither Relaxed Ordering nor ID-Based Ordering (R232). -/
def requestAttrs : Nat := 0

/-- Offsets of the PF's capabilities in configuration space: the PCIe layout within each, at places of the model's own (PRESUMED,
notes/assumptions/83.md). -/
def capSriov : Nat := 0x160
def capSerial : Nat := 0x140

/-- A 32-bit word of a function's configuration space; words that R2 and R232 say nothing of are free values. -/
def State.pciWord (s : State) (fn off : Nat) : Nat :=
  if off = 0 then pciVendor + 2 ^ 16 * pciDevice
  else if fn = 0 ∧ off = capSerial + 4 then Config.serial.toNat % 2 ^ 32
  else if fn = 0 ∧ off = capSerial + 8 then Config.serial.toNat / 2 ^ 32
  else if fn = 0 ∧ off = capSriov + 8 then b2n (s.hif.vfEnabled != 0)
  else if fn = 0 ∧ off = capSriov + 0x0C then 32 + 2 ^ 16 * 32
  else if fn = 0 ∧ off = capSriov + 0x10 then s.hif.numVfs
  else if fn = 0 ∧ off = capSriov + 0x18 then 2 ^ 16 * pciDevice
  else Config.freeNat 36 (fn * 4096 + off) % 2 ^ 32

/-- VF Enable: VFs 1 to NumVFs (R232, HIF_VF_ENABLED). -/
def State.enableVfs (s : State) (on : Bool) : State :=
  { s with hif := { s.hif with vfEnabled := if on then BitVec.ofNat 32 (2 ^ s.hif.numVfs - 1) else 0 } }

/-- A write to configuration space: the PF's NumVFs while no VF is enabled, and VF Enable. -/
def State.pciWrite (s : State) (fn off size v : Nat) : State :=
  if fn ≠ 0 ∨ off % size ≠ 0 then s
  else if off = capSriov + 8 then s.enableVfs (v.testBit 0)
  else if off = capSriov + 0x10 ∧ s.hif.vfEnabled = 0 ∧ v % 2 ^ 16 ≤ 32 then { s with hif := { s.hif with numVfs := v % 2 ^ 16 } }
  else s

/-! ### Windows (Table 11.1, R233, R242) -/

/-- The debug window is implemented until the production lock is set. -/
def State.hasDebug (s : State) : Bool := !s.boot.locked

/-- Bytes that a base address register of a function asks for: 0 where the window is not implemented. -/
def State.barBytes (s : State) (fn bar : Nat) : Nat :=
  if bar = 0 then (if fn = 0 then 2 ^ 20 else 4096)
  else if bar = 2 then 2 ^ 18
  else if bar = 4 ∧ fn = 0 ∧ s.hasDebug then 2 ^ 24
  else 0

/-- A read of a window: the doorbell pages read zero; the debug window, whose layout is not specified, gives free values. -/
def State.windowRead (s : State) (fn bar off : Nat) : Nat :=
  if bar = 0 then (match s.windowAddr fn off with | some a => s.regValue a | none => 0)
  else if bar = 4 ∧ off < s.barBytes fn 4 then Config.freeNat 37 off % 2 ^ 32
  else 0

end Sys2Proof.Machine
end

