-- ==== Sys2Proof/Machine/HostPort.lean ====
section
/-! DEFINITION. The host's side: doorbells, the fetch of envelopes, the dispatch of tasks, register writes, and the SMBus target (R242 to
R244, R247, R259, R266 to R269, R450 to R454, R493). -/

namespace Sys2Proof.Machine

/-! ### Doorbells (R242, R243) -/

/-- A doorbell's ring: host index I, device index J, length N (0 command, 1 completion, 2 stream, 3 event). -/
def State.doorIndices (s : State) (k r : Nat) : BitVec 32 × BitVec 32 :=
  let x := s.rs k
  match r with
  | 0 => (x.cmdProd, x.cmdCons)
  | 1 => (x.cplCons, x.cplProd)
  | 2 => (x.strProd, x.strCons)
  | _ => (s.hif.evtCons, s.hif.evtProd)

/-- A doorbell's test: 0 nothing changes, 1 accepted, 2 refused. -/
def State.doorTest (s : State) (k r : Nat) (x : BitVec 32) : Nat :=
  let (i, j) := s.doorIndices k r
  let n := s.ringLen k r
  let ok := if r = 0 ∨ r = 2 then decide ((x - j).toNat ≤ n) && decide ((x - i).toNat ≤ n) else decide ((x - i).toNat ≤ (j - i).toNat)
  if x = i then 0 else if ok then 1 else 2

/-- The host index of a ring takes its new value; a freed entry of the event ring lets EVENTS_LOST be written (R253). -/
def State.doorTake (s : State) (k r : Nat) (x : BitVec 32) : State :=
  match r with
  | 0 => s.modRs k (fun q => { q with cmdProd := x })
  | 1 => s.modRs k (fun q => { q with cplCons := x })
  | 2 => s.modRs k (fun q => { q with strProd := x })
  | _ => ({ s with hif := { s.hif with evtCons := x } }).flushLost

/-- One doorbell word of ring `r` (R242, R243). A write of another size or offset, or by a VF to a page of a set that it does not
hold, is ignored; a doorbell that fails its test posts DOORBELL_REFUSED unless the set is DISABLED. -/
def State.doorbell (s : State) (d : DoorWrite) (r : Nat) (named : Fin 64) (x : BitVec 32) : State :=
  let k := d.page.val
  let st := (s.rs k).st
  let verdict := if named != d.page || (r == 3 && k != 0) || st != .enabled then 2 else s.doorTest k r x
  if d.offset != 0 || d.size != 8 || (d.fn != 0 && s.rsFn k != d.fn.val) then s
  else if verdict = 0 then s
  else if verdict = 1 then s.doorTake k r x
  else if st == .disabled then s
  else s.event 4 (k + 2 ^ 8 * r) x.toNat

def execDoorbellCommandProducer (door : DoorWrite) (named : Fin 64) (index : W32) (s : State) : Host.Outcome State Fault Refusal :=
  .next (s.doorbell door 0 named index)

def execDoorbellCompletionConsumer (door : DoorWrite) (named : Fin 64) (index : W32) (s : State) : Host.Outcome State Fault Refusal :=
  .next (s.doorbell door 1 named index)

def execDoorbellStreamProducer (door : DoorWrite) (named : Fin 64) (index : W32) (s : State) : Host.Outcome State Fault Refusal :=
  .next (s.doorbell door 2 named index)

def execDoorbellEventConsumer (door : DoorWrite) (named : Fin 64) (index : W32) (s : State) : Host.Outcome State Fault Refusal :=
  .next (s.doorbell door 3 named index)

/-! ### Engines (Table 12.2) -/

/-- A task at its engine. -/
def engineOf (op : Op) (t : Task) (s : State) : State :=
  if t.courier then (if opClass op = 2 then engineSystemPart s else s.endReception)
  else match op with
  | .nop => engineNop t s
  | .stageWrite kind count index addr bytes => engineStageWrite kind count index addr bytes t s
  | .stageRead form kind sect index count bytes addr => engineStageRead form kind sect index count bytes addr t s
  | .check budget addr entries => engineCheck budget addr entries t s
  | .commit .. => engineCommit t s
  | .abandon => engineAbandon t s
  | .patternLoad base addr => enginePatternLoad base addr t s
  | .patternBroadcast base addr => enginePatternBroadcast base addr t s
  | .seal first countM1 => engineSeal first countM1 t s
  | .memCopy src dst lines => engineMemCopy src dst lines t s
  | .run site start input falling seg secs tu => engineRun site start input falling seg secs tu t s
  | .stop site => engineStop site t s
  | .arm site form seg => engineArm site form seg t s
  | .streamOpen stream => engineStreamOpen stream t s
  | .streamClose stream addr => engineStreamClose stream addr t s
  | .streamMark stream flush noMark pulse => engineStreamMark stream flush noMark pulse t s
  | .measure conv mux gain filter count urgent pairchk records buffer addr =>
    engineMeasure conv mux gain filter count urgent pairchk records buffer addr t s
  | .calibrate groups phases store defer_ => engineCalibrate groups phases store defer_ t s
  | .eyeSurvey site levels levelMask dwell channels oFirst oLast oStep settle bufAddr paramAddr =>
    engineEyeSurvey site levels levelMask dwell channels oFirst oLast oStep settle bufAddr paramAddr t s
  | .delay ticks => engineDelay ticks t s
  | .fence _ => engineFence t s
  | .cancel byFlow key => engineCancel byFlow key t s
  | .clerkCall entry args => engineClerkCall entry args t s
  | .cspStart entry args => engineCspStart entry args t s
  | .nvmWrite region offset bytes addr => engineNvmWrite region offset bytes addr t s
  | .nvmRead region offset bytes addr => engineNvmRead region offset bytes addr t s
  | .imageStage .. => s.imageTask t
  | .imageActivate _ => s.imageTask t
  | .attest nonce addr bytes => engineAttest nonce addr bytes t s
  | .unknown _ => s.complete t 3 0

/-! ### READY tasks (R259) -/

/-- Of two READY tasks, the one that a server takes first. -/
def readyFirst (a b : Task) : Task :=
  if a.hdr.prio < b.hdr.prio then b
  else if b.hdr.prio < a.hdr.prio then a
  else if b.readySeq < a.readySeq then b
  else a

/-- The head of the highest-priority ready list of a class. -/
def State.readyHead (s : State) (cls : Nat) : Option Task :=
  match s.so.tasks.filter (fun t => t.st == .ready && opClass t.op == cls) with
  | [] => none
  | t :: ts => some (ts.foldl readyFirst t)

/-- A READY task goes to its engine. -/
def State.dispatchTask (s : State) (t : Task) : State :=
  let t := { t with st := .inService }
  engineOf t.op t (s.modTask t.id (fun _ => t))

/-- TASK_DISPATCH: a free server of the class takes the head. -/
def execTaskDispatch (cls : Fin 9) (s : State) : Host.Outcome State Fault Refusal :=
  match s.readyHead cls.val with
  | none => .next s
  | some t => if s.serverFree cls.val then .next (s.dispatchTask t) else .next s

/-! ### ENVELOPE_FETCH (R247, R266, R267, R272) -/

/-- How many envelopes the next read of a ring set would take. -/
def State.readCount (s : State) (k : Nat) : Nat := min (s.fetchRoom k) ((s.rs k).cmdProd - (s.rs k).cmdCons).toNat

/-- The ring set whose turn it is: from the one after the last that was read, the first that a read may take from. -/
def State.fetchTurn (s : State) : Option Nat :=
  ((List.range 64).map (fun i => (s.so.turn + i) % 64)).find? (fun k => s.readCount k != 0)

/-- The next envelope of a ring set takes the slot that its read reserved, to be checked. -/
def State.admitNext (s : State) (k : Fin 64) : State :=
  let e := readLE s.host (s.entryAddr k.val 0 64 (s.rs k.val).cmdCons.toNat) 64
  let s := s.addTask (s.newTask (decodeHdr k e) (decodeOp e) .checking)
  s.modRs k.val (fun r => { r with cmdCons := r.cmdCons + 1 })

/-- The checks of an envelope end: it completes, waits or is READY (Table 12.1). -/
def State.endChecks (s : State) (t : Task) : State :=
  let status := s.envelopeStatus t.hdr t.fn t.op
  if status ≠ 0 then s.complete t status 0
  else
    let st : TaskState := if isBlocked s.so.tasks t then .waiting else .ready
    let s := s.modTask t.id (fun u => { u with st := st, readySeq := s.so.readySeq })
    { s with so := { s.so with readySeq := s.so.readySeq + 1 } }

/-- The checks of a fetched envelope, unless a CANCEL of its read has ended it. A STOP or CANCEL, which nothing holds, goes to its engine
at once: the cancel wins over the tasks of its read that are READY, WAITING or CHECKING (R262, R270, R272; DEDUCED,
notes/assumptions/43.md). -/
def State.checkNext (s : State) (id : Nat) : State :=
  match s.task id with
  | none => s
  | some t =>
    let s := s.endChecks t
    match s.task id with
    | some u => if isFree u.op && u.st == .ready then s.dispatchTask u else s
    | none => s

/-- The first of some tasks that is READY and that a free server of its class would take. -/
def State.dispatchable (s : State) (ids : List Nat) : Option Task :=
  ids.findSome? (fun id =>
    match s.task id with
    | some t => if t.st == .ready && s.serverFree (opClass t.op) && (s.readyHead (opClass t.op)).map (·.id) == some id then some t else none
    | none => none)

/-- The tasks of a read that free servers take, at most `n`. -/
def State.dispatchRead (s : State) (ids : List Nat) : Nat → State
  | 0 => s
  | n + 1 =>
    match s.dispatchable ids with
    | some t => (s.dispatchTask t).dispatchRead ids n
    | none => s

/-- ENVELOPE_FETCH: one read of ring set k, if it is its turn: its envelopes take their slots, their checks end in order, and free
servers take what is READY. -/
def execEnvelopeFetch (k : Fin 64) (s : State) : Host.Outcome State Fault Refusal :=
  if s.fetchTurn != some k.val then .next s
  else
    let n := s.readCount k.val
    let ids := (List.range n).map (s.so.nextId + ·)
    let s := { s with so := { s.so with turn := (k.val + 1) % 64 } }
    let s := (List.range n).foldl (fun (s : State) _ => s.admitNext k) s
    let s := ids.foldl (fun (s : State) id => s.checkNext id) s
    .next ((s.dispatchRead ids n).writeBack k.val)

/-! ### Register writes (R450 to R453) -/

/-- A 4-byte write by a function: CLERK_CMD, or any other register it may reach. -/
def State.hostWrite4 (s : State) (fn a v : Nat) : State :=
  match s.windowAddr fn a with
  | none => s
  | some w =>
    if w = 0xB014 then (if v.testBit 0 then (s.setHeld (blockOf w) none).abortCustomers else s.setHeld (blockOf w) none)
    else s.busWrite w v

/-- REGISTER_WRITE: `size` bytes at an address of a function's window, 0 the PF's; addresses past the PF's window are the function's
PCI configuration space (notes/assumptions/83.md). -/
def execRegisterWrite (fn : Fin 33) (addr size : Nat) (value : BitVec 64) (s : State) : Host.Outcome State Fault Refusal :=
  let v := value.toNat
  if pciBase ≤ addr then .next (s.pciWrite fn.val (addr - pciBase) size v)
  else if (size ≠ 4 ∧ size ≠ 8) ∨ addr % size ≠ 0 then .next s
  else if size = 4 then .next (s.hostWrite4 fn.val addr (v % 2 ^ 32))
  else
    match s.windowAddr fn.val addr with
    | some w => if wideLow w = some w then .next (s.busWrite8 w v)
        else .next ((s.hostWrite4 fn.val addr (v % 2 ^ 32)).hostWrite4 fn.val (addr + 4) (v / 2 ^ 32))
    | none => .next ((s.hostWrite4 fn.val addr (v % 2 ^ 32)).hostWrite4 fn.val (addr + 4) (v / 2 ^ 32))

/-! ### SMBus (R493) -/

/-- The SMBus target answers, whatever the boot stage, from 1 ms after POR_N rose. -/
def State.smbAnswers (s : State) : Bool := !s.boot.porLow && decide (s.boot.smbFrom ≤ s.now)

/-- An SMBus command is answered. -/
def State.smbAnswer (s : State) (v : Nat) : State := if s.smbAnswers then s.noteStatus.emit (.smbus v) else s

def execSmbusReadPart (s : State) : Host.Outcome State Fault Refusal := .next (s.smbAnswer 0x5128)
def execSmbusReadStatus (s : State) : Host.Outcome State Fault Refusal := .next (s.smbAnswer s.statusByte)
def execSmbusReadTemperature (s : State) : Host.Outcome State Fault Refusal := .next (s.smbAnswer (ofSigned 8 s.boot.thermTemp))
def execSmbusReadSerial (s : State) : Host.Outcome State Fault Refusal := .next (s.smbAnswer Config.serial.toNat)

/-- ALERT_RESPONSE: the device that holds ALERT_N low answers the Alert Response Address and releases it. -/
def execAlertResponse (s : State) : Host.Outcome State Fault Refusal :=
  if !s.smbAnswers || !s.boot.alertLow then .next s
  else .next ({ s with boot := { s.boot with alertLow := false } }.emit .alertResponse)

end Sys2Proof.Machine
end

