-- ==== Sys2Proof/Machine/Dispatch.lean ====
section
/-! DEFINITION. One arm per command of spec/opcode_table.json, each a direct call of its meaning. `exec` is a command's effect
on everything but the queue of waiting commands. -/

namespace Sys2Proof.Machine

def exec (i : Instr) (s : State) : Host.Outcome State Fault Refusal :=
  match i with
  | .nop h => Sys2Proof.Machine.execNop h s
  | .stageWrite h kind count index addr bytes => Sys2Proof.Machine.execStageWrite h kind count index addr bytes s
  | .stageRead h form kind sect index count bytes addr => Sys2Proof.Machine.execStageRead h form kind sect index count bytes addr s
  | .check h budget addr entries => Sys2Proof.Machine.execCheck h budget addr entries s
  | .commit h form budget site mask entry secs tu => Sys2Proof.Machine.execCommit h form budget site mask entry secs tu s
  | .systemCommit h budget mask secs tu => Sys2Proof.Machine.execSystemCommit h budget mask secs tu s
  | .abandon h => Sys2Proof.Machine.execAbandon h s
  | .patternLoad h base addr => Sys2Proof.Machine.execPatternLoad h base addr s
  | .patternBroadcast h base addr => Sys2Proof.Machine.execPatternBroadcast h base addr s
  | .seal h first countM1 => Sys2Proof.Machine.execSeal h first countM1 s
  | .memCopy h src dst lines => Sys2Proof.Machine.execMemCopy h src dst lines s
  | .run h site start input falling seg secs tu => Sys2Proof.Machine.execRun h site start input falling seg secs tu s
  | .stop h site => Sys2Proof.Machine.execStop h site s
  | .arm h site seg => Sys2Proof.Machine.execArm h site seg s
  | .armHostRequest h site => Sys2Proof.Machine.execArmHostRequest h site s
  | .streamOpen h stream => Sys2Proof.Machine.execStreamOpen h stream s
  | .streamClose h stream addr => Sys2Proof.Machine.execStreamClose h stream addr s
  | .streamMark h stream flush noMark pulse => Sys2Proof.Machine.execStreamMark h stream flush noMark pulse s
  | .measure h conv mux gain filter count urgent pairchk records buffer addr => Sys2Proof.Machine.execMeasure h conv mux gain filter count urgent pairchk records buffer addr s
  | .calibrate h groups phases store defer => Sys2Proof.Machine.execCalibrate h groups phases store defer s
  | .eyeSurvey h site levels levelMask dwell channels oFirst oLast oStep settle bufAddr paramAddr => Sys2Proof.Machine.execEyeSurvey h site levels levelMask dwell channels oFirst oLast oStep settle bufAddr paramAddr s
  | .delay h ticks => Sys2Proof.Machine.execDelay h ticks s
  | .fence h scope => Sys2Proof.Machine.execFence h scope s
  | .cancel h byFlow key => Sys2Proof.Machine.execCancel h byFlow key s
  | .clerkCall h entry args => Sys2Proof.Machine.execClerkCall h entry args s
  | .cspStart h entry args => Sys2Proof.Machine.execCspStart h entry args s
  | .nvmWrite h region offset bytes addr => Sys2Proof.Machine.execNvmWrite h region offset bytes addr s
  | .nvmRead h region offset bytes addr => Sys2Proof.Machine.execNvmRead h region offset bytes addr s
  | .imageStage h kind bytes addr => Sys2Proof.Machine.execImageStage h kind bytes addr s
  | .imageActivate h kind => Sys2Proof.Machine.execImageActivate h kind s
  | .attest h nonce addr bytes => Sys2Proof.Machine.execAttest h nonce addr bytes s
  | .doorbellCommandProducer door named index => Sys2Proof.Machine.execDoorbellCommandProducer door named index s
  | .doorbellCompletionConsumer door named index => Sys2Proof.Machine.execDoorbellCompletionConsumer door named index s
  | .doorbellStreamProducer door named index => Sys2Proof.Machine.execDoorbellStreamProducer door named index s
  | .doorbellEventConsumer door named index => Sys2Proof.Machine.execDoorbellEventConsumer door named index s
  | .envelopeFetch k => Sys2Proof.Machine.execEnvelopeFetch k s
  | .taskDispatch cls => Sys2Proof.Machine.execTaskDispatch cls s
  | .delayDue => Sys2Proof.Machine.execDelayDue s
  | .msixSignalTimeout k ring => Sys2Proof.Machine.execMsixSignalTimeout k ring s
  | .ringSetEnable k => Sys2Proof.Machine.execRingSetEnable k s
  | .ringSetShutdown k => Sys2Proof.Machine.execRingSetShutdown k s
  | .ringSetState k => Sys2Proof.Machine.execRingSetState k s
  | .ringResized k ring => Sys2Proof.Machine.execRingResized k ring s
  | .grantApplied site => Sys2Proof.Machine.execGrantApplied site s
  | .vfFlr vf => Sys2Proof.Machine.execVfFlr vf s
  | .linkReset cause => Sys2Proof.Machine.execLinkReset cause s
  | .pcieLinkTrained rate width hostFlit => Sys2Proof.Machine.execPcieLinkTrained rate width hostFlit s
  | .preparationComplete site => Sys2Proof.Machine.execPreparationComplete site s
  | .runEpoch site => Sys2Proof.Machine.execRunEpoch site s
  | .vectorIssue site => Sys2Proof.Machine.execVectorIssue site s
  | .decisionPoint site => Sys2Proof.Machine.execDecisionPoint site s
  | .passBoundary site => Sys2Proof.Machine.execPassBoundary site s
  | .checkRereadComplete site clean frank1 frank2 => Sys2Proof.Machine.execCheckRereadComplete site clean frank1 frank2 s
  | .prefetchFill site errs => Sys2Proof.Machine.execPrefetchFill site errs s
  | .underrun site => Sys2Proof.Machine.execUnderrun site s
  | .stopBoundary site => Sys2Proof.Machine.execStopBoundary site s
  | .stopOnFail site => Sys2Proof.Machine.execStopOnFail site s
  | .reactionBoundary site => Sys2Proof.Machine.execReactionBoundary site s
  | .drainComplete site => Sys2Proof.Machine.execDrainComplete site s
  | .dutCrossing c comp asserted t => Sys2Proof.Machine.execDutCrossing c comp asserted t s
  | .intervalLatch slot => Sys2Proof.Machine.execIntervalLatch slot s
  | .epochPairDue isStream n => Sys2Proof.Machine.execEpochPairDue isStream n s
  | .tbWarm ocxoHigh => Sys2Proof.Machine.execTbWarm ocxoHigh s
  | .recordMerge stream queue => Sys2Proof.Machine.execRecordMerge stream queue s
  | .bagFlushTimeout stream => Sys2Proof.Machine.execBagFlushTimeout stream s
  | .bagWrite => Sys2Proof.Machine.execBagWrite s
  | .spillRead line errs => Sys2Proof.Machine.execSpillRead line errs s
  | .triggerEdge input asserting t => Sys2Proof.Machine.execTriggerEdge input asserting t s
  | .triggerPulseStart line => Sys2Proof.Machine.execTriggerPulseStart line s
  | .triggerPulseEnd line => Sys2Proof.Machine.execTriggerPulseEnd line s
  | .cspActivationApply => Sys2Proof.Machine.execCspActivationApply s
  | .cspIn dst count tags => Sys2Proof.Machine.execCspIn dst count tags s
  | .cspOut src lanes => Sys2Proof.Machine.execCspOut src lanes s
  | .cspOutResume => Sys2Proof.Machine.execCspOutResume s
  | .cspWait records cycles => Sys2Proof.Machine.execCspWait records cycles s
  | .cspWaitEnd byCycles => Sys2Proof.Machine.execCspWaitEnd byCycles s
  | .cspHalt code => Sys2Proof.Machine.execCspHalt code s
  | .cspLoop count length => Sys2Proof.Machine.execCspLoop count length s
  | .cspMac dst a b subtract q31 => Sys2Proof.Machine.execCspMac dst a b subtract q31 s
  | .cspRnd dst wide src k => Sys2Proof.Machine.execCspRnd dst wide src k s
  | .cspAlu op wide dst a b q => Sys2Proof.Machine.execCspAlu op wide dst a b q s
  | .cspMove move found => Sys2Proof.Machine.execCspMove move found s
  | .cspKind q src kind => Sys2Proof.Machine.execCspKind q src kind s
  | .cspFld dst src lo width wide => Sys2Proof.Machine.execCspFld dst src lo width wide s
  | .cspPack dst src q count wide => Sys2Proof.Machine.execCspPack dst src q count wide s
  | .cspPrev dst src carry count wide => Sys2Proof.Machine.execCspPrev dst src carry count wide s
  | .cspHist src q base bias bins wide found => Sys2Proof.Machine.execCspHist src q base bias bins wide found s
  | .cspAcs setting found => Sys2Proof.Machine.execCspAcs setting found s
  | .cspTrace named length dst found => Sys2Proof.Machine.execCspTrace named length dst found s
  | .cspBranch op => Sys2Proof.Machine.execCspBranch op s
  | .frameSend p => Sys2Proof.Machine.execFrameSend p s
  | .frameReceive p frame laneFault => Sys2Proof.Machine.execFrameReceive p frame laneFault s
  | .ack p stamp => Sys2Proof.Machine.execAck p stamp s
  | .nak p stamp => Sys2Proof.Machine.execNak p stamp s
  | .credit p vc count => Sys2Proof.Machine.execCredit p vc count s
  | .laneDrop p lane t => Sys2Proof.Machine.execLaneDrop p lane t s
  | .laneAdd p lane t => Sys2Proof.Machine.execLaneAdd p lane t s
  | .markerSend p t => Sys2Proof.Machine.execMarkerSend p t s
  | .markerReceive p lane content counted fill => Sys2Proof.Machine.execMarkerReceive p lane content counted fill s
  | .replayTimeout p => Sys2Proof.Machine.execReplayTimeout p s
  | .laneFailure p lane t seen => Sys2Proof.Machine.execLaneFailure p lane t seen s
  | .laneReturnTimeout p lane => Sys2Proof.Machine.execLaneReturnTimeout p lane s
  | .portStateAdvance p tx rx inverted work => Sys2Proof.Machine.execPortStateAdvance p tx rx inverted work s
  | .portStateTimeout p => Sys2Proof.Machine.execPortStateTimeout p s
  | .portDownRetry p => Sys2Proof.Machine.execPortDownRetry p s
  | .detectPoll p found => Sys2Proof.Machine.execDetectPoll p found s
  | .capability p version role clock deviceId lanes tbWarm lastDelivered commitEpoch => Sys2Proof.Machine.execCapability p version role clock deviceId lanes tbWarm lastDelivered commitEpoch s
  | .fillerOn p => Sys2Proof.Machine.execFillerOn p s
  | .discover p hops parent parentPort => Sys2Proof.Machine.execDiscover p hops parent parentPort s
  | .answer p serial role arrival needImage parent parentPort hops flight => Sys2Proof.Machine.execAnswer p serial role arrival needImage parent parentPort hops flight s
  | .assign p id place lsys perHop => Sys2Proof.Machine.execAssign p id place lsys perHop s
  | .already p id => Sys2Proof.Machine.execAlready p id s
  | .matchTable group combiner h inSubtree => Sys2Proof.Machine.execMatchTable group combiner h inSubtree s
  | .tSync p seq t1 t2 => Sys2Proof.Machine.execTSync p seq t1 t2 s
  | .tReq p seq t3 t4 => Sys2Proof.Machine.execTReq p seq t3 t4 s
  | .tResp p seq t4 asym resent naked walk => Sys2Proof.Machine.execTResp p seq t4 asym resent naked walk s
  | .second p secs rate epoch tbWarm domain step => Sys2Proof.Machine.execSecond p secs rate epoch tbWarm domain step s
  | .join group dev => Sys2Proof.Machine.execJoin group dev s
  | .leave group dev => Sys2Proof.Machine.execLeave group dev s
  | .verdict group dev index matched => Sys2Proof.Machine.execVerdict group dev index matched s
  | .result group index verdict => Sys2Proof.Machine.execResult group index verdict s
  | .prepare secs tu epoch => Sys2Proof.Machine.execPrepare secs tu epoch s
  | .ready dev => Sys2Proof.Machine.execReady dev s
  | .refuse dev code => Sys2Proof.Machine.execRefuse dev code s
  | .go => Sys2Proof.Machine.execGo s
  | .abort => Sys2Proof.Machine.execAbort s
  | .systemCommitConfirm dev => Sys2Proof.Machine.execSystemCommitConfirm dev s
  | .voteDeadline => Sys2Proof.Machine.execVoteDeadline s
  | .systemCommitLost => Sys2Proof.Machine.execSystemCommitLost s
  | .confirmationDeadline => Sys2Proof.Machine.execConfirmationDeadline s
  | .patternData p base header bytes last => Sys2Proof.Machine.execPatternData p base header bytes last s
  | .bootData p kind bytes last => Sys2Proof.Machine.execBootData p kind bytes last s
  | .couCmdTest p => Sys2Proof.Machine.execCouCmdTest p s
  | .couCmdTestExit p => Sys2Proof.Machine.execCouCmdTestExit p s
  | .couCmdRetrain p => Sys2Proof.Machine.execCouCmdRetrain p s
  | .couCmdInjectFrank p => Sys2Proof.Machine.execCouCmdInjectFrank p s
  | .couCmdBitSlip p lane => Sys2Proof.Machine.execCouCmdBitSlip p lane s
  | .couCmdInjectOnce p => Sys2Proof.Machine.execCouCmdInjectOnce p s
  | .couCtrlEnableSet p => Sys2Proof.Machine.execCouCtrlEnableSet p s
  | .couCtrlEnableClear p => Sys2Proof.Machine.execCouCtrlEnableClear p s
  | .couEyeWrite p value => Sys2Proof.Machine.execCouEyeWrite p value s
  | .eyeScanDone p mismatch => Sys2Proof.Machine.execEyeScanDone p mismatch s
  | .ptuSecond => Sys2Proof.Machine.execPtuSecond s
  | .syncSecondDue => Sys2Proof.Machine.execSyncSecondDue s
  | .todOutDue => Sys2Proof.Machine.execTodOutDue s
  | .exchangeTimeout p => Sys2Proof.Machine.execExchangeTimeout p s
  | .skewCalibration p pathTu flight => Sys2Proof.Machine.execSkewCalibration p pathTu flight s
  | .rootPhaseStep up => Sys2Proof.Machine.execRootPhaseStep up s
  | .ppsEdge t => Sys2Proof.Machine.execPpsEdge t s
  | .todMessage msg endT => Sys2Proof.Machine.execTodMessage msg endT s
  | .syncInEdge t => Sys2Proof.Machine.execSyncInEdge t s
  | .ptuHostOfsTuWrite value => Sys2Proof.Machine.execPtuHostOfsTuWrite value s
  | .sourceLost domain => Sys2Proof.Machine.execSourceLost domain s
  | .exchangeLoss => Sys2Proof.Machine.execExchangeLoss s
  | .fclkInLoss step => Sys2Proof.Machine.execFclkInLoss step s
  | .fclkRestored => Sys2Proof.Machine.execFclkRestored s
  | .degraded => Sys2Proof.Machine.execDegraded s
  | .ptuCtrlSwitch => Sys2Proof.Machine.execPtuCtrlSwitch s
  | .ptuGenCtrlArm g => Sys2Proof.Machine.execPtuGenCtrlArm g s
  | .generatorInstant g => Sys2Proof.Machine.execGeneratorInstant g s
  | .ptuMatchCfgWrite combiner => Sys2Proof.Machine.execPtuMatchCfgWrite combiner s
  | .matchResultDeadline group => Sys2Proof.Machine.execMatchResultDeadline group s
  | .matchCondition site => Sys2Proof.Machine.execMatchCondition site s
  | .ptuTimeCapture => Sys2Proof.Machine.execPtuTimeCapture s
  | .ptuTimeRelease => Sys2Proof.Machine.execPtuTimeRelease s
  | .commitPrepared => Sys2Proof.Machine.execCommitPrepared s
  | .commitApply site => Sys2Proof.Machine.execCommitApply site s
  | .peScriptPlay g => Sys2Proof.Machine.execPeScriptPlay g s
  | .peScriptEnd g => Sys2Proof.Machine.execPeScriptEnd g s
  | .surveySettleElapsed site => Sys2Proof.Machine.execSurveySettleElapsed site s
  | .surveyPointEnd site => Sys2Proof.Machine.execSurveyPointEnd site s
  | .trainingComplete c0 c1 c2 c3 => Sys2Proof.Machine.execTrainingComplete c0 c1 c2 c3 s
  | .driftTrackingVisit c rank weakLane => Sys2Proof.Machine.execDriftTrackingVisit c rank weakLane s
  | .recentreComplete c rank sub device found multi => Sys2Proof.Machine.execRecentreComplete c rank sub device found multi s
  | .mr4Poll doubledRanks => Sys2Proof.Machine.execMr4Poll doubledRanks s
  | .dimmSensorRead temps => Sys2Proof.Machine.execDimmSensorRead temps s
  | .refreshDue c rank postpone => Sys2Proof.Machine.execRefreshDue c rank postpone s
  | .bankIdleTimeout c rank sub bank => Sys2Proof.Machine.execBankIdleTimeout c rank sub bank s
  | .patrolScrub line errs => Sys2Proof.Machine.execPatrolScrub line errs s
  | .migrationStart => Sys2Proof.Machine.execMigrationStart s
  | .migrationComplete => Sys2Proof.Machine.execMigrationComplete s
  | .rankRetrainComplete c rank pass => Sys2Proof.Machine.execRankRetrainComplete c rank pass s
  | .mcCmdMigrate c rank => Sys2Proof.Machine.execMcCmdMigrate c rank s
  | .mcCmdClearCounters => Sys2Proof.Machine.execMcCmdClearCounters s
  | .groupTemperatureRead g temp => Sys2Proof.Machine.execGroupTemperatureRead g temp s
  | .calOverdue g => Sys2Proof.Machine.execCalOverdue g s
  | .stale g => Sys2Proof.Machine.execStale g s
  | .phaseStart g => Sys2Proof.Machine.execPhaseStart g s
  | .phaseComplete g m fails => Sys2Proof.Machine.execPhaseComplete g m fails s
  | .inPlaceRerun g => Sys2Proof.Machine.execInPlaceRerun g s
  | .trimStep c q delta => Sys2Proof.Machine.execTrimStep c q delta s
  | .replicaOut g => Sys2Proof.Machine.execReplicaOut g s
  | .calCmdStore fails => Sys2Proof.Machine.execCalCmdStore fails s
  | .calCmdRestorePrev => Sys2Proof.Machine.execCalCmdRestorePrev s
  | .calGroupCtrlSleep g set => Sys2Proof.Machine.execCalGroupCtrlSleep g set s
  | .calLoopRunSet g => Sys2Proof.Machine.execCalLoopRunSet g s
  | .calLoopRunClear g => Sys2Proof.Machine.execCalLoopRunClear g s
  | .calLoopInjectOnce g => Sys2Proof.Machine.execCalLoopInjectOnce g s
  | .adcConversion b code ovr => Sys2Proof.Machine.execAdcConversion b code ovr s
  | .housekeepingRound => Sys2Proof.Machine.execHousekeepingRound s
  | .adcCmdRetestA => Sys2Proof.Machine.execAdcCmdRetestA s
  | .adcCmdRetestB => Sys2Proof.Machine.execAdcCmdRetestB s
  | .adcResultFreeze pair => Sys2Proof.Machine.execAdcResultFreeze pair s
  | .adcResultRelease pair => Sys2Proof.Machine.execAdcResultRelease pair s
  | .clerkMicroword op taken stall dataErrs checkErrs => Sys2Proof.Machine.execClerkMicroword op taken stall dataErrs checkErrs s
  | .clerkWait ctx op => Sys2Proof.Machine.execClerkWait ctx op s
  | .clerkEnd ctx op => Sys2Proof.Machine.execClerkEnd ctx op s
  | .clerkAbort ctx => Sys2Proof.Machine.execClerkAbort ctx s
  | .contextSwitch woken started => Sys2Proof.Machine.execContextSwitch woken started s
  | .watchdogExpiry => Sys2Proof.Machine.execWatchdogExpiry s
  | .customerLimitExpiry ctx => Sys2Proof.Machine.execCustomerLimitExpiry ctx s
  | .controlStoreScrub foundA foundB => Sys2Proof.Machine.execControlStoreScrub foundA foundB s
  | .bankSwap => Sys2Proof.Machine.execBankSwap s
  | .swapTimeout => Sys2Proof.Machine.execSwapTimeout s
  | .clerkCmdAbortCustomer => Sys2Proof.Machine.execClerkCmdAbortCustomer s
  | .faultAssertion n detail => Sys2Proof.Machine.execFaultAssertion n detail s
  | .quietPeriodExpiry n asserted => Sys2Proof.Machine.execQuietPeriodExpiry n asserted s
  | .fcStickyClear w mask coincident => Sys2Proof.Machine.execFcStickyClear w mask coincident s
  | .fcInject n coincident => Sys2Proof.Machine.execFcInject n coincident s
  | .fcRelease n coincident => Sys2Proof.Machine.execFcRelease n coincident s
  | .fcSrcClrRec n => Sys2Proof.Machine.execFcSrcClrRec n s
  | .fcLogSel n => Sys2Proof.Machine.execFcLogSel n s
  | .thermWarn temp => Sys2Proof.Machine.execThermWarn temp s
  | .thermShutdown => Sys2Proof.Machine.execThermShutdown s
  | .powerOnReset straps rswing => Sys2Proof.Machine.execPowerOnReset straps rswing s
  | .supplyBrownout => Sys2Proof.Machine.execSupplyBrownout s
  | .sysResetDevice key bit => Sys2Proof.Machine.execSysResetDevice key bit s
  | .rootPllLock nor => Sys2Proof.Machine.execRootPllLock nor s
  | .bootStageTimeout otpGood => Sys2Proof.Machine.execBootStageTimeout otpGood s
  | .secArm value => Sys2Proof.Machine.execSecArm value s
  | .secArmExpiry => Sys2Proof.Machine.execSecArmExpiry s
  | .programRoot slot ok => Sys2Proof.Machine.execProgramRoot slot ok s
  | .revoke slot ok => Sys2Proof.Machine.execRevoke slot ok s
  | .advance value ok => Sys2Proof.Machine.execAdvance value ok s
  | .prodLock ok => Sys2Proof.Machine.execProdLock ok s
  | .smbusReadPart => Sys2Proof.Machine.execSmbusReadPart s
  | .smbusReadStatus => Sys2Proof.Machine.execSmbusReadStatus s
  | .smbusReadTemperature => Sys2Proof.Machine.execSmbusReadTemperature s
  | .smbusReadSerial => Sys2Proof.Machine.execSmbusReadSerial s
  | .alertResponse => Sys2Proof.Machine.execAlertResponse s
  | .sysCvCommitSeqRead => Sys2Proof.Machine.execSysCvCommitSeqRead s
  | .readClear addr arriving => Sys2Proof.Machine.execReadClear addr arriving s
  | .registerWrite fn addr size value => Sys2Proof.Machine.execRegisterWrite fn addr size value s
  | .patternTransferComplete task outcomes found => Sys2Proof.Machine.execPatternTransferComplete task outcomes found s
  | .stagingComplete task => Sys2Proof.Machine.execStagingComplete task s
  | .migrationLineCopy errs => Sys2Proof.Machine.execMigrationLineCopy errs s
  | .elasticBufferOverflow p => Sys2Proof.Machine.execElasticBufferOverflow p s
  | .checkerBitError p lane => Sys2Proof.Machine.execCheckerBitError p lane s
  | .msixUnmask fn vector => Sys2Proof.Machine.execMsixUnmask fn vector s
  | .porNLow => Sys2Proof.Machine.execPorNLow s

end Sys2Proof.Machine
end

