-- ==== Sys2Proof/Safety.lean ====
section
/-! DEFINITION. The terms that statements about a run use: the canonical form of the memories, what it takes for an envelope to reach
its engine, and what a completion, an event or a fault may touch beside a command's own effect. -/

namespace Sys2Proof.Machine

/-- The canonical form of host memory: addresses strictly rising, no entry equal to what an unlisted address reads as. -/
def Memory.wf (m : List Host.Cell) : Bool := tabWf (fun _ => unlistedByte) m

/-- Both addressed memories of a state, host memory and the pattern memory's lines, are in their canonical form. -/
def State.memoriesOk (s : State) : Bool := Memory.wf s.host && tabWf (fun _ => (0 : BitVec 512)) s.mem.lines

/-- Every task's id is below the next one: ids name tasks. -/
def State.idsFresh (s : State) : Prop := ∀ u ∈ s.so.tasks, u.id < s.so.nextId

/-- An envelope reaches its engine in the step that fetches it: a read may take it (R247, R267, R268, R433), its checks pass (R248)
and no flow, fence, READY task or busy server holds it back (R259 to R263). -/
def Accepts (s : State) (h : Hdr) (op : Op) : Prop :=
  s.fetchRoom h.rs.val ≠ 0 ∧ s.envelopeStatus h (s.rsFn h.rs.val) op = 0 ∧ s.goesAtOnce h op = true

/-- The task slot that an envelope takes at its engine. -/
def taskOf (s : State) (h : Hdr) (op : Op) : Task := s.newTask h op .inService

/-- The envelope's task is in service with this outcome formed; its class's completion event will end it. -/
def HasOutcome (t : State) (id status result : Nat) : Prop :=
  ∃ u, t.task id = some u ∧ u.st = .inService ∧ u.outcome = some (status, result)

/-- The completion entry of Table 11.10 at a time in TU. -/
def completionEntry (h : Hdr) (status result time : Nat) : Nat :=
  h.tag.toNat + 2 ^ 16 * (status % 65536) + 2 ^ 32 * h.flow.toNat + 2 ^ 48 * time80 time + 2 ^ 128 * (result % 2 ^ 128)

/-- `t` differs from `s` at most in what the office and the rings touch when tasks come and go: the task slots, the rings' indices and
signals, host memory, SO_PAUSES, and what left the device. -/
def SameButOffice (s t : State) : Prop :=
  t = { s with so := t.so, host := t.host, hif := t.hif, rc := t.rc, out := t.out }

/-- `t` differs from `s` at most in that, and in what events and faults touch: the fault collector, groups that fall asleep, records
and marks on their way, and the STATUS byte. -/
def SameButEvents (s t : State) : Prop :=
  t = { s with so := t.so, host := t.host, hif := t.hif, rc := t.rc, out := t.out, fc := t.fc, groups := t.groups, acq := t.acq,
               boot := t.boot }

/-- From `s` the envelope's task has completed with this status and result, with no other task about: its slot is free; the completion
ring's next entry holds the completion (where the write-back area does not overlap it) and the producer index has moved on; no other
byte of host memory has changed, the write-back area apart. -/
def Completed (s t : State) (h : Hdr) (status result : Nat) : Prop :=
  let k := h.rs.val
  let e := s.entryAddr k 1 32 (s.rs k).cplProd.toNat
  let w := s.reg64 (aRs k 0x18)
  t.so.tasks = [] ∧ (t.rs k).cplProd = (s.rs k).cplProd + 1
    ∧ (e + 32 ≤ w ∨ w + 20 ≤ e → readLE t.host e 32 = completionEntry h status result s.ptuNow)
    ∧ (∀ a, (a < e ∨ e + 32 ≤ a) → (a < w ∨ w + 20 ≤ a) → readByte t.host a = readByte s.host a)

end Sys2Proof.Machine
end

