-- ==== Sys2Proof/Certificates/Slice0/Obligations.lean ====
section
/-! DEFINITION. The statements for the provers, one `def Obligations.<Name> : Prop` each. Every completion statement concludes that
`exec` answers a next state, under hypotheses on the state and the operands alone, and says what that state holds; a frame written
`t = (s with fields of t)` says that every other field is unchanged. -/

open Sys2Proof Sys2Proof.Machine

/-- For every command c and state s, where c stands at the front of s's queue a step of s is exec of c on s with the queue's rest;
on an empty queue the root clock goes on by one CLK_FRAME cycle of 16,000 TU and nothing else changes (the queue and the idle step
are the model's own, notes/assumptions/5.md). (spec/00_scope.md, spec/98_reader.md, notes/assumptions/5.md) -/
def Obligations.StepRunsFrontCommand : Prop :=
  (∀ (c : Instr) (rest : List Instr) (s : State), s.pending = c :: rest → step s = exec c { s with pending := rest })
    ∧ ∀ s : State, s.pending = [] → step s = .next { s with now := s.now + 16000 }

/-- For every state s whose queue is c followed by rest, if a step of s answers next t then t's queue is rest, whatever c is: no
command's effect touches the commands that wait (the queue is the model's own, notes/assumptions/5.md). (spec/00_scope.md,
notes/assumptions/5.md) -/
def Obligations.FrontCommandLeavesQueueRest : Prop :=
  ∀ (c : Instr) (rest : List Instr) (s t : State), s.pending = c :: rest → step s = .next t → t.pending = rest

/-- For every state s whose host memory and pattern-memory lines are in canonical form (addresses strictly rising, no entry equal
to what an unlisted address reads as), if a step of s answers next t then t's memories are in canonical form too, whatever command
is in front: no completion, event, postbag, image, migration or reset leaves two states that read alike unequal.
(spec/11_host_interface_and_rings.md, spec/15_pattern_memory_controller.md, notes/assumptions/4.md) -/
def Obligations.EveryStepKeepsMemoriesCanonical : Prop :=
  ∀ s t : State, s.memoriesOk = true → step s = .next t → t.memoriesOk = true

/-- For every state s in which every task of the Sorting Office has an id below the next id to be given, if a step of s answers
next t then the same holds in t: a newly fetched envelope never shares its id with a task that still holds a slot. The ids are the
model's own names for the slots of R256. (spec/12_sorting_office.md) -/
def Obligations.EveryStepKeepsTaskIdsFresh : Prop :=
  ∀ s t : State, s.idsFresh → step s = .next t → t.idsFresh

/-- After reset both memories are in canonical form, every task id is fresh and no command waits. (spec/12_sorting_office.md,
spec/11_host_interface_and_rings.md) -/
def Obligations.ResetMeetsInvariants : Prop :=
  State.reset.memoriesOk = true ∧ State.reset.idsFresh ∧ State.reset.pending = []

/-- In a state whose Sorting Office holds no task, a NOP, a FENCE, and a CANCEL (which then matches nothing), not QUIET, that the
office accepts, each answer a next state in which the slot is free, the completion ring's next entry holds tag, status OK, flow,
time and result 0 as Table 11.10 lays them out (unless the write-back area overlaps it), the producer index has moved on by one,
no byte of host memory outside that entry and the write-back area has changed, and nothing else has changed but the office, the
rings' signals and SO_PAUSES. An accepted QUIET NOP answers a next state with its slot free, the producer index of its completion
ring as it was, and every byte of host memory outside the ring set's 20-byte write-back area as it was.
(spec/11_host_interface_and_rings.md § Completions, spec/11_host_interface_and_rings.md § Envelopes and fetch,
spec/12_sorting_office.md § Fences, spec/12_sorting_office.md § Cancel) -/
def Obligations.ControlEnvelopesComplete : Prop :=
  (∀ (h : Hdr) (s : State), s.so.tasks = [] → h.quiet = false →
    (Accepts s h .nop → ∃ t, exec (.nop h) s = .next t ∧ Completed s t h 0 0 ∧ SameButOffice s t)
    ∧ (∀ scope, Accepts s h (.fence scope) → ∃ t, exec (.fence h scope) s = .next t ∧ Completed s t h 0 0 ∧ SameButOffice s t)
    ∧ ∀ byFlow key, Accepts s h (.cancel byFlow key) →
        ∃ t, exec (.cancel h byFlow key) s = .next t ∧ Completed s t h 0 0 ∧ SameButOffice s t)
  ∧ ∀ (h : Hdr) (s : State), s.so.tasks = [] → h.quiet = true → Accepts s h .nop →
    ∃ t, exec (.nop h) s = .next t ∧ t.so.tasks = [] ∧ (t.rs h.rs.val).cplProd = (s.rs h.rs.val).cplProd
      ∧ (∀ a, (a < s.reg64 (aRs h.rs.val 0x18) ∨ s.reg64 (aRs h.rs.val 0x18) + 20 ≤ a) → readByte t.host a = readByte s.host a)
      ∧ SameButOffice s t

/-- In a state whose Sorting Office holds no task and whose rings allow a read, a STOP of a site above 31, a FENCE of a scope
above 1, a STREAM_OPEN of a stream above 15 and a DELAY of zero ticks complete with BAD_ENVELOPE, and before READY (boot stage not
5) a DELAY of a correct operand completes with NOT_PERMITTED; nothing but the office, the completion ring and its signals has
changed. (spec/11_host_interface_and_rings.md § Envelopes and fetch, spec/20_boot_security_update.md) -/
def Obligations.EnvelopeChecksRefuse : Prop :=
  ∀ (h : Hdr) (s : State), s.so.tasks = [] → s.fetchRoom h.rs.val ≠ 0 →
    (∀ site, 31 < site → ∃ t, exec (.stop h site) s = .next t ∧ Completed s t h 3 0 ∧ SameButOffice s t)
    ∧ (∀ scope, 1 < scope → ∃ t, exec (.fence h scope) s = .next t ∧ Completed s t h 3 0 ∧ SameButOffice s t)
    ∧ (∀ stream, 15 < stream → ∃ t, exec (.streamOpen h stream) s = .next t ∧ Completed s t h 3 0 ∧ SameButOffice s t)
    ∧ (∃ t, exec (.delay h 0) s = .next t ∧ Completed s t h 3 0 ∧ SameButOffice s t)
    ∧ ∀ ticks, ticks ≠ 0 → s.boot.stage ≠ 5 → ∃ t, exec (.delay h ticks) s = .next t ∧ Completed s t h 4 0 ∧ SameButOffice s t

/-- An accepted DELAY of TICKS answers a next state that holds its task in service with a due time that is the first CLK_MGMT
cycle (64,000 TU) at or after now + TICKS x TICK_US microseconds, and nothing else has changed but the office and SO_PAUSES.
DELAY_DUE, where one DELAY that is not QUIET, fetched from a ring, is the office's only task, brings the root clock to its due
time and completes it with OK. Of two entries with different due times the earlier leaves the list first.
(spec/12_sorting_office.md § The delay list) -/
def Obligations.DelayEntersListAndFallsDue : Prop :=
  (∀ (h : Hdr) (ticks : Nat) (s : State), s.idsFresh → Accepts s h (.delay ticks) →
    ∃ t u, exec (.delay h ticks) s = .next t ∧ t = { s with so := t.so, rc := t.rc }
      ∧ t.task s.so.nextId = some u ∧ u.st = .inService ∧ u.op = .delay ticks ∧ u.due % 64000 = 0
      ∧ s.now + ticks * fld (s.reg aDelayTick) 0 16 * 8000000 ≤ u.due
      ∧ u.due < s.now + ticks * fld (s.reg aDelayTick) 0 16 * 8000000 + 64000)
  ∧ (∀ (u : Machine.Task) (s : State), s.so.tasks = [u] → inDelayList u = true → u.courier = false → u.hdr.quiet = false →
      ∃ t, exec .delayDue s = .next t ∧ t.now = max s.now u.due ∧ Completed (s.advance u.due) t u.hdr 0 0
        ∧ SameButOffice (s.advance u.due) t)
  ∧ ∀ (u v : Machine.Task) (s : State), s.so.tasks = [u, v] → inDelayList u = true → inDelayList v = true → u.id ≠ v.id →
      u.due < v.due → u.waitsFor = [] → v.waitsFor = [] →
      ∃ t, exec .delayDue s = .next t ∧ t.now = max s.now u.due ∧ t.task u.id = none ∧ (t.task v.id).isSome = true

/-- Where the items that a STAGE_WRITE carries take exactly the bytes it names, no COMMIT of the draft is pending, the ring set
may write every item and the draft storage holds the result, the next state's draft of the ring set holds the items laid over the
earlier draft, the task's outcome is OK with the item count and the free storage, and every draft of another ring set, the
committed set, host memory and all else but the task slots and SO_PAUSES are as they were. Where a COMMIT of the draft is pending
the outcome is NOT_PERMITTED and no draft changes. (spec/08_staging_and_commit.md § Drafts, spec/12_sorting_office.md § Slots and
the life of a task) -/
def Obligations.StageWriteFillsDraft : Prop :=
  ∀ (h : Hdr) (kind count index addr bytes : Nat) (s : State), s.idsFresh → Accepts s h (.stageWrite kind count index addr bytes) →
    (readItems s.host kind count index addr).2 = bytes →
    let items := (readItems s.host kind count index addr).1
    let d := putItems (s.draft h.rs.val) items
    (s.draftHeld h.rs.val = true →
      ∃ t, exec (.stageWrite h kind count index addr bytes) s = .next t ∧ t = { s with so := t.so, rc := t.rc }
        ∧ HasOutcome t s.so.nextId 4 0)
    ∧ (s.draftHeld h.rs.val = false →
      items.all (s.mayStage (overlay s.cfg.committed (d.filter (fun kv => kv.1 / 65536 != 12))) h.rs.val) = true →
      s.storageWith h.rs.val d ≤ 8388608 →
      ∃ t, exec (.stageWrite h kind count index addr bytes) s = .next t
        ∧ t = { s with so := t.so, rc := t.rc, cfg := { s.cfg with drafts := t.cfg.drafts } }
        ∧ t.draft h.rs.val = d ∧ (∀ k, k ≠ h.rs.val → t.draft k = s.draft k)
        ∧ HasOutcome t s.so.nextId 0 (count + 2 ^ 32 * (8388608 - s.storageWith h.rs.val d)))

/-- An accepted STAGE_READ of one item (form 0 draft, form 1 committed) whose buffer is large enough writes the item's bytes at
its address, the draft's value in form 0 where the draft holds the item and the committed value otherwise, with outcome OK and the
bytes written; no other byte of host memory changes. In form 2, of a site with no vector boundary to come (none of RUN, HOLD and
ARMED), it takes the snapshot of the section at once. An accepted CHECK answers with the outcome OK exactly where the candidate
set has no violation and CHECK_FAILED otherwise, writes its report of at most ENTRIES violations where it names a buffer, and
changes nothing else but the office and SO_PAUSES. (spec/08_staging_and_commit.md § Drafts, spec/08_staging_and_commit.md § CHECK,
spec/11_host_interface_and_rings.md § Operand layouts) -/
def Obligations.StageReadAndCheckReport : Prop :=
  (∀ (h : Hdr) (form kind sect index bytes addr : Nat) (s : State), s.idsFresh → form < 2 →
    Accepts s h (.stageRead form kind sect index 1 bytes addr) →
    let v := match (if form = 0 then (s.draft h.rs.val).find? (fun kv => kv.1 == itemKey kind index) else none) with
      | some kv => kv.2
      | none => s.item kind index
    itemSize kind index v ≤ bytes →
    ∃ t, exec (.stageRead h form kind sect index 1 bytes addr) s = .next t ∧ t = { s with so := t.so, rc := t.rc, host := t.host }
      ∧ readLE t.host addr (itemSize kind index v) = v % 256 ^ itemSize kind index v
      ∧ (∀ a, (a < addr ∨ addr + itemSize kind index v ≤ a) → readByte t.host a = readByte s.host a)
      ∧ HasOutcome t s.so.nextId 0 (itemSize kind index v))
  ∧ (∀ (h : Hdr) (site sect index count bytes addr : Nat) (s : State), Accepts s h (.stageRead 2 site sect index count bytes addr) →
    count * (s.section site sect).2 ≤ bytes →
    let u := taskOf s h (.stageRead 2 site sect index count bytes addr)
    hasBoundary (((s.addTask u).catchUp site).site site) = false → (((s.addTask u).catchUp site).site site).st ≠ .armed →
    ∃ t, exec (.stageRead h 2 site sect index count bytes addr) s = .next t
      ∧ t = State.snapshot ((s.addTask u).catchUp site) u.id site sect index count addr)
  ∧ ∀ (h : Hdr) (budget addr entries : Nat) (s : State), s.idsFresh → Accepts s h (.check budget addr entries) →
    let vs := (s.addTask (taskOf s h (.check budget addr entries))).violations h.rs.val budget
    ∃ t r, exec (.check h budget addr entries) s = .next t ∧ t = { s with so := t.so, rc := t.rc, host := t.host }
      ∧ HasOutcome t s.so.nextId (if vs.isEmpty then 0 else 2) r
      ∧ (addr = 0 → t.host = s.host)
      ∧ (addr ≠ 0 → t.host = (s.writeElems addr 16 ((vs.take entries).map violBytes)).host)

/-- Where the lines of every named Segment Table entry, in the committed set and the candidate, are the function's own and lie in
trained memory, an accepted SEAL in a state without a pending commit gives each named committed entry the CRC-32C over its lines
as they stand in bits 207 to 176 and the same bits elsewhere, leaves every other committed item as it was, advances the commit
sequence number by one, and changes nothing else but the draft of its own ring set, the office and SO_PAUSES.
(spec/04_sequencer.md § Check values, poisoned lines and the run outcome) -/
def Obligations.SealWritesFranks : Prop :=
  ∀ (h : Hdr) (first countM1 : Nat) (s : State), s.idsFresh → Accepts s h (.seal first countM1) → s.cfg.pending = none →
    (∀ j, j ≤ countM1 → s.canSeal s.cfg.committed (first + j) = true ∧ s.canSeal (s.candidate h.rs.val) (first + j) = true
      ∧ ∀ cv, cv = s.cfg.committed ∨ cv = s.candidate h.rs.val →
          s.holdsLines (s.rsFn h.rs.val) (segLine (cvSeg cv (first + j))) (sealLines cv (first + j)) = true) →
    ∃ t, exec (.seal h first countM1) s = .next t
      ∧ t = { s with so := t.so, rc := t.rc,
                     cfg := { s.cfg with committed := t.cfg.committed, drafts := t.cfg.drafts, commitSeq := t.cfg.commitSeq } }
      ∧ (∀ j, j ≤ countM1 → t.item 7 (first + j) = putFld (s.item 7 (first + j)) 176 32
          (s.linesFrank (segLine (s.item 7 (first + j))) (sealLines s.cfg.committed (first + j))).toNat)
      ∧ (∀ kind idx, (∀ j, j ≤ countM1 → itemKey kind idx ≠ itemKey 7 (first + j)) → t.item kind idx = s.item kind idx)
      ∧ t.cfg.commitSeq = (s.cfg.commitSeq + 1) % 2 ^ 32
      ∧ ∀ k, k ≠ h.rs.val → t.draft k = s.draft k

/-- Where the office's only task, fetched from a ring and not QUIET or with a status other than OK, is in service with its outcome
formed, STAGING_COMPLETE (a STAGING task) and PATTERN_TRANSFER_COMPLETE (a PATTERN_LOAD or MEM_COPY) free its slot and write its
completion with that status and result, and change nothing else. A MEM_COPY whose outcome is still open completes with OK and its
line count once its lines have been copied. (spec/12_sorting_office.md § Slots and the life of a task,
spec/11_host_interface_and_rings.md § Completions, spec/03_vector_format.md) -/
def Obligations.ClassCompletionsWriteOutcome : Prop :=
  ∀ (u : Machine.Task) (s : State), s.so.tasks = [u] → u.st = .inService → u.courier = false →
    (∀ st r, u.outcome = some (st, r) → u.hdr.quiet = false ∨ st ≠ 0 →
      (opClass u.op = 1 → ∃ t, exec (.stagingComplete u.id) s = .next t ∧ Completed s t u.hdr st r ∧ SameButOffice s t)
      ∧ ∀ outcomes found, (∃ base addr, u.op = .patternLoad base addr) ∨ (∃ src dst lines, u.op = .memCopy src dst lines) →
          ∃ t, exec (.patternTransferComplete u.id outcomes found) s = .next t ∧ Completed s t u.hdr st r ∧ SameButOffice s t)
    ∧ ∀ src dst lines found, u.outcome = none → u.op = .memCopy src dst lines → u.hdr.quiet = false →
        ∃ t, exec (.patternTransferComplete u.id [] found) s = .next t
          ∧ t = (s.copyLines src dst lines found).complete u 0 lines

/-- An accepted PATTERN_LOAD whose image passes the checks, and an accepted MEM_COPY within trained memory whose destination no
site protects, hold their slots in service with no outcome and change nothing but the office and SO_PAUSES; a MEM_COPY of
untrained memory or beyond its capacity has the outcome NO_RESOURCE, and one onto protected lines NOT_PERMITTED. An accepted
PATTERN_BROADCAST sends the image down the tree as data frames and holds its slot. (spec/03_vector_format.md,
spec/15_pattern_memory_controller.md) -/
def Obligations.PatternEnvelopesBegin : Prop :=
  (∀ (h : Hdr) (base addr : Nat) (s : State), s.idsFresh → Accepts s h (.patternLoad base addr) →
    (s.addTask (taskOf s h (.patternLoad base addr))).imageStatus (hostImage s.host addr) base (s.rsFn h.rs.val) = 0 →
    ∃ t, exec (.patternLoad h base addr) s = .next t ∧ t = { s with so := t.so, rc := t.rc }
      ∧ t.task s.so.nextId = some (taskOf s h (.patternLoad base addr)))
  ∧ (∀ (h : Hdr) (src dst lines : Nat) (s : State), s.idsFresh → Accepts s h (.memCopy src dst lines) →
    (s.trained = true → src + lines ≤ s.mem.capacity → dst + lines ≤ s.mem.capacity →
      ((s.addTask (taskOf s h (.memCopy src dst lines))).protectedLines dst lines = false →
        ∃ t, exec (.memCopy h src dst lines) s = .next t ∧ t = { s with so := t.so, rc := t.rc }
          ∧ t.task s.so.nextId = some (taskOf s h (.memCopy src dst lines)))
      ∧ ((s.addTask (taskOf s h (.memCopy src dst lines))).protectedLines dst lines = true →
        ∃ t, exec (.memCopy h src dst lines) s = .next t ∧ t = { s with so := t.so, rc := t.rc } ∧ HasOutcome t s.so.nextId 4 0))
    ∧ (s.trained = false ∨ s.mem.capacity < src + lines ∨ s.mem.capacity < dst + lines →
        ∃ t, exec (.memCopy h src dst lines) s = .next t ∧ t = { s with so := t.so, rc := t.rc } ∧ HasOutcome t s.so.nextId 5 0))
  ∧ ∀ (h : Hdr) (base addr : Nat) (s : State), s.idsFresh → Accepts s h (.patternBroadcast base addr) →
    let n := imgLines (hostImage s.host addr)
    let u := taskOf s h (.patternBroadcast base addr)
    ∃ t, exec (.patternBroadcast h base addr) s = .next t
      ∧ t = (s.addTask u).sendData base true true (bytesOf (64 * n) (readLE s.host addr (64 * n)))
      ∧ t = { s with so := t.so, rc := t.rc, ports := t.ports, out := t.out } ∧ t.task s.so.nextId = some u

/-- Where the office has a free slot and no reception is under way, a header frame that is not the last begins a reception with
its base and bytes, and a task that came over Courier takes a slot for it; without a free slot it changes nothing. A further frame
that is not the last appends its bytes to the reception under way. Either frame goes on down the tree, and nothing changes but the
ports, what left the device, the reception and, for the header, the office and SO_PAUSES. A last frame whose reception's task is
not in service waits; where the task is in service it ends the reception: an image whose checks pass is stored to its lines and
event LOAD_OUTCOME carries the device's own id and the load's status, one that fails them only posts the event with the status
that refuses it, and the slot is free. (spec/03_vector_format.md, spec/12_sorting_office.md § Fetch and back-pressure,
spec/13_courier_links.md) -/
def Obligations.PatternDataFramesAreReceived : Prop :=
  ∀ (p : Fin 4) (base : Nat) (bytes : List Byte) (s : State),
    (s.tree.rxPattern = none → s.idsFresh → s.freeSlots ≠ 0 →
      ∃ t u, exec (.patternData p base true bytes false) s = .next t
        ∧ t.tree = { s.tree with rxPattern := some { base := base, bytes := bytes, whole := false, slot := s.so.nextId } }
        ∧ t.task s.so.nextId = some u ∧ u.courier = true ∧ t.so.tasks = s.so.tasks ++ [u]
        ∧ t.ports = (s.sendData base true false bytes).ports ∧ t.out = (s.sendData base true false bytes).out
        ∧ t = { s with ports := t.ports, out := t.out, tree := t.tree, so := t.so, rc := t.rc })
    ∧ (s.freeSlots = 0 → ∀ last, ∃ t, exec (.patternData p base true bytes last) s = .next t ∧ t = s)
    ∧ ∀ g : Reception, s.tree.rxPattern = some g →
        let sent := s.sendData base false false bytes
        (∃ t, exec (.patternData p base false bytes false) s = .next t
          ∧ t = { sent with tree := { s.tree with rxPattern := some { g with bytes := g.bytes ++ bytes, whole := false } } }
          ∧ t = { s with ports := t.ports, out := t.out, tree := t.tree })
        ∧ let fin := s.sendData base false true bytes
          ((∀ u, s.task g.slot = some u → u.st ≠ .inService) →
            ∃ t, exec (.patternData p base false bytes true) s = .next t
              ∧ t = { fin with tree := { s.tree with rxPattern := some { g with bytes := g.bytes ++ bytes, whole := true } } })
          ∧ ∀ u, s.task g.slot = some u → u.st = .inService →
            let s' : State := { fin with tree := { fin.tree with rxPattern := none } }
            let rd := listImage (g.bytes ++ bytes)
            ∃ t, exec (.patternData p base false bytes true) s = .next t
              ∧ (s'.imageStatus rd g.base 0 = 0 →
                  t = ((s'.storeImage rd g.base).1.event 9 s.ownId (s'.storeImage rd g.base).2.1).completeId g.slot 0 0)
              ∧ (s'.imageStatus rd g.base 0 ≠ 0 → t = (s'.event 9 s.ownId (s'.imageStatus rd g.base 0)).completeId g.slot 0 0)
              ∧ t.task g.slot = none

/-- In an office without another task and with no commit pending, an accepted COMMIT (any form, without the SYSTEM flag) of a ring
set whose draft is empty completes with OK, its result naming the present sequence number and digest head, no violation code and
no count; the committed set and the sequence number stay. With no commit pending or under way anywhere and no COMMIT of the ring
set waiting, an accepted ABANDON empties the draft of its ring set, forms the outcome OK, and leaves every other draft, the
committed set and all else but the task slots and SO_PAUSES as they were. (spec/08_staging_and_commit.md § COMMIT,
spec/08_staging_and_commit.md § Drafts) -/
def Obligations.EmptyCommitCompletesAndAbandonDiscards : Prop :=
  (∀ (h : Hdr) (form budget site mask entry secs tu : Nat) (s : State), s.so.tasks = [] → h.quiet = false →
    Accepts s h (.commit form false budget site mask entry secs tu) → s.cfg.pending = none → s.draft h.rs.val = [] →
    ∃ t, exec (.commit h form budget site mask entry secs tu) s = .next t ∧ Completed s t h 0 (s.commitResult 0 0)
      ∧ SameButOffice s t)
  ∧ ∀ (h : Hdr) (s : State), s.idsFresh → Accepts s h .abandon → s.cfg.pending = none →
    (∀ u ∈ s.so.tasks, waitsToBegin none s.cfg.system u = false) →
    ∃ t, exec (.abandon h) s = .next t ∧ t = { s with so := t.so, rc := t.rc, cfg := { s.cfg with drafts := t.cfg.drafts } }
      ∧ t.draft h.rs.val = [] ∧ (∀ k, k ≠ h.rs.val → t.draft k = s.draft k) ∧ HasOutcome t s.so.nextId 0 0

/-- With no commit pending, an accepted vector-boundary COMMIT (form 0) of a draft that holds items: where the check and C-46 find
no violation, the commit is pending with the draft's items, its preparation due after 5 us plus 1 ns for each 64 bytes of items
plus 4.096 us for each new pigeonhole, and the committed set, the draft and all else but the office and SO_PAUSES stay. In an
office without another task a COMMIT that finds a violation completes with CHECK_FAILED and nothing applies.
(spec/08_staging_and_commit.md § COMMIT, spec/08_staging_and_commit.md § System-wide commit) -/
def Obligations.CommitBeginsPreparation : Prop :=
  ∀ (h : Hdr) (budget site mask entry secs tu : Nat) (s : State),
    Accepts s h (.commit 0 false budget site mask entry secs tu) → s.cfg.pending = none → s.draft h.rs.val ≠ [] →
    let s1 := s.addTask (taskOf s h (.commit 0 false budget site mask entry secs tu))
    let vs := s1.violations h.rs.val budget ++ s1.c46 (s.draft h.rs.val) 0 mask site
    (vs = [] →
      ∃ t p, exec (.commit h 0 budget site mask entry secs tu) s = .next t ∧ t.cfg = { s.cfg with pending := some p }
        ∧ t = { s with so := t.so, rc := t.rc, cfg := t.cfg } ∧ p.items = s.draft h.rs.val ∧ p.prepared = none ∧ p.rs = h.rs.val
        ∧ p.mask = mask ∧ p.form = 0 ∧ p.task = some s.so.nextId ∧ p.anyApplied = false
        ∧ p.prepDue = s.now + 40000000 + ceilDiv (draftBytes (s.draft h.rs.val)) 64 * 8000
            + holesOf (s1.newFills (s.candidate h.rs.val)) * 32768000)
    ∧ (vs ≠ [] → s.so.tasks = [] →
      ∃ t r, exec (.commit h 0 budget site mask entry secs tu) s = .next t ∧ Completed s t h 2 r ∧ SameButOffice s t)

/-- With no commit pending, an accepted COMMIT with the SYSTEM flag whose check and C-46 find nothing, and whose instant leaves
the time of R186, becomes the pending system commit of epoch COMMIT_EPOCH + 1; PREPARE with the instant and the epoch is sent to
every device below, and nothing has applied: the committed set and the drafts stay, and only the office, SO_PAUSES, the ports and
what left the device have changed besides. (spec/08_staging_and_commit.md § System-wide commit) -/
def Obligations.SystemCommitSendsPrepare : Prop :=
  ∀ (h : Hdr) (budget mask secs tu : Nat) (s : State),
    Accepts s h (.commit 2 true budget 0 mask 0 secs tu) → s.cfg.pending = none →
    let s1 := s.addTask (taskOf s h (.commit 2 true budget 0 mask 0 secs tu))
    s1.violations h.rs.val budget ++ s1.c46 (s.draft h.rs.val) 2 mask 0 = [] →
    s.ptuNow + 2 * s.tree.lsys + prepBound (s.draft h.rs.val) (holesOf (s1.newFills (s.candidate h.rs.val))) ≤ secs * 8000000000000 + tu →
    ∃ t p y, exec (.systemCommit h budget mask secs tu) s = .next t
      ∧ t.cfg = { s.cfg with pending := some p, system := some y } ∧ p.system = true ∧ p.items = s.draft h.rs.val
      ∧ p.instant = secs * 8000000000000 + tu ∧ y.epoch = s.cfg.epoch + 1 ∧ y.instant = secs * 8000000000000 + tu
      ∧ p.prepared = none ∧ p.task = some s.so.nextId ∧ y.voted = false ∧ y.gone = false ∧ y.task = some s.so.nextId
      ∧ (let i := secs * 8000000000000 + tu
         let u := s.send msgPrepare toAll (time96 (i / 8000000000000) (i % 8000000000000) + 2 ^ 96 * (s.cfg.epoch + 1))
         t.ports = u.ports ∧ t.out = u.out)
      ∧ t = { s with so := t.so, rc := t.rc, cfg := t.cfg, ports := t.ports, out := t.out }

/-- COMMIT_PREPARED of a pending vector-boundary commit without a new C-46 brings the clock to the preparation's end and records
it as A; besides, only the pigeonholes that the preparation fills and the walkers, which read the replaced entries, may change.
COMMIT_APPLY without a site, of a prepared form-0 commit whose reference moment has not come, brings the clock to A + 16 ns
(128,000 TU), puts the START_DELAY and START_LIST of every staged site in force, and applies exactly the items that govern no
site, or a site that is not in ARMED, RUN, HOLD or DRAIN, and that need no IDLE site which is not IDLE.
(spec/08_staging_and_commit.md § COMMIT) -/
def Obligations.CommitPreparesAndApplies : Prop :=
  (∀ (p : PendingCommit) (s : State), s.cfg.pending = some p → p.prepared = none → p.system = false → p.form = 0 →
    (s.advance p.prepDue).c46 p.items p.form p.mask p.site = [] →
    ∃ t, exec .commitPrepared s = .next t
      ∧ t = (s.advance p.prepDue).commitReady p
      ∧ t = { s with now := max s.now p.prepDue, sites := t.sites, mem := { s.mem with holes := t.mem.holes },
                     cfg := { s.cfg with pending := some { p with prepared := some (max s.now p.prepDue) } } })
  ∧ ∀ (p : PendingCommit) (a : Nat) (s : State), s.cfg.pending = some p → p.prepared = some a → p.form = 0 → p.system = false →
    p.refDone = false → (p.anyApplied = true ∨ (s.advance (a + 128000)).c46 p.items p.form p.mask p.site = []) →
    let w := ((s.advance (a + 128000)).applyStarts { p with refDone := true, moment := a + 128000 }).1
    let q := ((s.advance (a + 128000)).applyStarts { p with refDone := true, moment := a + 128000 }).2
    ∃ t, exec (.commitApply none) s = .next t
      ∧ t = w.applyItems q (fun kv => match w.homeSite q kv with
          | none => !w.mustWait q kv
          | some k => !isBusySite (w.site k) && !w.mustWait q kv) (a + 128000)

/-- A prepared form-0 commit of exactly one trigger route, in an office without another task and with no system commit, is applied
whole by COMMIT_APPLY at its reference moment: the committed route reads as staged, every other committed item reads as before,
the commit is no longer pending, COMMIT_SEQ has advanced by one and the draft of its ring set is empty.
(spec/08_staging_and_commit.md § COMMIT) -/
def Obligations.AppliedItemIsCommitted : Prop :=
  ∀ (p : PendingCommit) (a idx v : Nat) (s : State), s.cfg.pending = some p → p.prepared = some a → p.form = 0 → p.system = false →
    p.refDone = false → p.items = [(itemKey 10 idx, v)] → idx < 16 → p.task = none → s.so.tasks = [] → s.cfg.system = none →
    ∃ t, exec (.commitApply none) s = .next t ∧ t.item 10 idx = v
      ∧ (∀ kind j, itemKey kind j ≠ itemKey 10 idx → t.item kind j = s.item kind j)
      ∧ t.cfg.pending = none ∧ t.cfg.commitSeq = (s.cfg.commitSeq + 1) % 2 ^ 32 ∧ t.draft p.rs = []

/-- PREPARE on a device that holds no system commit, but whose own commit is pending, takes a task slot, records its instant and
epoch and goes on down the tree; without a free slot it changes nothing. READY and SYSTEM_COMMIT_CONFIRM record the device that
voted or confirmed. REFUSE on the Postmaster records the device. GO to a device that has voted READY marks the commit as going and
goes on down. ABORT before GO, with nothing pending, goes on down and ends the commit with nothing applied: no system commit is
left, its slot is free, no item of the committed set has changed, and the outcome CHECK_FAILED is posted.
(spec/08_staging_and_commit.md § System-wide commit) -/
def Obligations.SystemCommitMessages : Prop :=
  (∀ (secs tu : Nat) (epoch : W32) (s : State), s.cfg.system = none → s.freeSlots = 0 →
    ∃ t, exec (.prepare secs tu epoch) s = .next t ∧ t = s)
  ∧ (∀ (secs tu : Nat) (epoch : W32) (s : State), s.cfg.system = none → s.cfg.pending.isSome = true → s.freeSlots ≠ 0 →
    ∃ t y, exec (.prepare secs tu epoch) s = .next t ∧ t.cfg = { s.cfg with system := some y } ∧ y.epoch = epoch.toNat
      ∧ y.instant = secs * 8000000000000 + tu ∧ y.voted = false ∧ y.gone = false ∧ y.task = none
      ∧ y.slot = some s.so.nextId ∧ t.so.tasks.length = s.so.tasks.length + 1
      ∧ (let i := secs * 8000000000000 + tu
         let u := s.send msgPrepare toAll (time96 (i / 8000000000000) (i % 8000000000000) + 2 ^ 96 * epoch.toNat)
         t.ports = u.ports ∧ t.out = u.out)
      ∧ t = { s with cfg := t.cfg, ports := t.ports, out := t.out, so := t.so, rc := t.rc })
  ∧ (∀ (dev : BitVec 10) (y : SystemCommit) (s : State), s.cfg.system = some y →
    (s.cfg.pending = none →
      ∃ t, exec (.ready dev) s = .next t
        ∧ t = { s with cfg := { s.cfg with system := some { y with readyDevs := dev.toNat :: y.readyDevs } } })
    ∧ (y.task.isSome = true → ∀ code,
        ∃ t, exec (.refuse dev code) s = .next t
          ∧ t = { s with cfg := { s.cfg with system := some { y with refused := dev.toNat :: y.refused } } })
    ∧ (y.task.isSome = true → y.gone = false →
        ∃ t, exec (.systemCommitConfirm dev) s = .next t
          ∧ t = { s with cfg := { s.cfg with system := some { y with confirmed := dev.toNat :: y.confirmed } } })
    ∧ (y.voted = true → y.gone = false →
        ∃ t, exec .go s = .next t ∧ t.cfg = { s.cfg with system := some { y with gone := true } }
          ∧ t.ports = (s.send msgGo toAll 0).ports ∧ t.out = (s.send msgGo toAll 0).out
          ∧ t = { s with cfg := t.cfg, ports := t.ports, out := t.out })
    ∧ (y.gone = false → y.task = none → s.cfg.pending = none →
        ∃ t, exec .abort s = .next t ∧ t = ((s.send msgAbort toAll 0).endPart).systemEvent 2
          ∧ t.cfg = { s.cfg with system := none } ∧ Emit.message msgAbort toAll 0 ∈ t.out
          ∧ ∀ id, y.slot = some id → t.task id = none))

/-- VOTE_DEADLINE at a Postmaster whose commit has not gone, with nothing else pending, aborts it: ABORT is sent, no system commit
is left and the committed set stays. SYSTEM_COMMIT_LOST on a device that has voted and holds neither GO nor ABORT applies nothing,
raises fault source 37 and leaves the commit epoch. CONFIRMATION_DEADLINE after GO ends the system commit, and in an office whose
only task is the COMMIT it completes with FAULTED and the number of devices that have not confirmed.
(spec/08_staging_and_commit.md § System-wide commit, spec/19_fault_collection.md) -/
def Obligations.SystemCommitDeadlines : Prop :=
  ∀ (y : SystemCommit) (s : State), s.cfg.system = some y → s.cfg.pending = none →
    (y.task.isSome = true → y.gone = false →
      ∃ t, exec .voteDeadline s = .next t ∧ t.cfg = { s.cfg with system := none } ∧ s.now ≤ t.now
        ∧ Emit.message msgAbort toAll 0 ∈ t.out)
    ∧ (y.task = none → y.voted = true → y.gone = false →
      ∃ t, exec .systemCommitLost s = .next t ∧ t.cfg = { s.cfg with system := none } ∧ t.tree.inEpoch = false
        ∧ (t.src 37).sticky = true)
    ∧ ∀ u : Machine.Task, y.task = some u.id → y.gone = true → s.so.tasks = [u] →
      let v := s.advance (rootOfPtu s.ptu (y.instant + 8000000000000))
      let w : State := { v with cfg := { v.cfg with system := none } }
      let n := ((s.ownId :: s.votersBelow).filter (fun d => !decide (d ∈ y.confirmed))).length
      ∃ t, exec .confirmationDeadline s = .next t ∧ t = (w.complete u 6 (w.commitResult 0 n)).systemEvent 6
        ∧ t.so.tasks = [] ∧ t.cfg = { s.cfg with system := none }

/-- On the page of an ENABLED ring set, of a function that may reach it, an 8-byte doorbell at the page's start that names the set
is accepted for the command and stream rings where the written index X is at most N beyond the device index and the host index
(modulo 2^32), and for the completion ring and (ring set 0 with no event lost) the event ring where X is no further from the old
host index than the device index is; then that host index is X, no other ring set has changed and nothing beside the ring indices
has. A doorbell whose index fails the test and differs from the host index leaves every index and posts DOORBELL_REFUSED with the
ring set, the ring and X. A write of another size or offset, or a VF's to a page of a set that it does not hold, changes nothing.
(spec/11_host_interface_and_rings.md § Doorbells) -/
def Obligations.DoorbellsMoveHostIndices : Prop :=
  (∀ (d : DoorWrite) (k : Fin 64) (x : W32) (s : State), d.page = k → d.offset = 0 → d.size = 8 →
    (d.fn = 0 ∨ s.rsFn k.val = d.fn.val) → (s.rs k.val).st = .enabled →
    let q := s.rs k.val
    ((x - q.cmdCons).toNat ≤ s.ringLen k.val 0 → (x - q.cmdProd).toNat ≤ s.ringLen k.val 0 →
      ∃ t, exec (.doorbellCommandProducer d k x) s = .next t ∧ t = { s with hif := t.hif }
        ∧ t.rs k.val = { q with cmdProd := x } ∧ ∀ j, j ≠ k.val → t.rs j = s.rs j)
    ∧ ((x - q.cplCons).toNat ≤ (q.cplProd - q.cplCons).toNat →
      ∃ t, exec (.doorbellCompletionConsumer d k x) s = .next t ∧ t = { s with hif := t.hif }
        ∧ t.rs k.val = { q with cplCons := x } ∧ ∀ j, j ≠ k.val → t.rs j = s.rs j)
    ∧ ((x - q.strCons).toNat ≤ s.ringLen k.val 2 → (x - q.strProd).toNat ≤ s.ringLen k.val 2 →
      ∃ t, exec (.doorbellStreamProducer d k x) s = .next t ∧ t = { s with hif := t.hif }
        ∧ t.rs k.val = { q with strProd := x } ∧ ∀ j, j ≠ k.val → t.rs j = s.rs j)
    ∧ (k = 0 → s.hif.evtLost = 0 → (x - s.hif.evtCons).toNat ≤ (s.hif.evtProd - s.hif.evtCons).toNat →
      ∃ t, exec (.doorbellEventConsumer d k x) s = .next t ∧ t = { s with hif := { s.hif with evtCons := x } })
    ∧ (x ≠ q.cmdProd → s.ringLen k.val 0 < (x - q.cmdCons).toNat →
      ∃ t, exec (.doorbellCommandProducer d k x) s = .next t ∧ t = s.event 4 k.val x.toNat)
    ∧ (x ≠ q.cplCons → (q.cplProd - q.cplCons).toNat < (x - q.cplCons).toNat →
      ∃ t, exec (.doorbellCompletionConsumer d k x) s = .next t ∧ t = s.event 4 (k.val + 256) x.toNat)
    ∧ (x ≠ q.strProd → s.ringLen k.val 2 < (x - q.strCons).toNat →
      ∃ t, exec (.doorbellStreamProducer d k x) s = .next t ∧ t = s.event 4 (k.val + 512) x.toNat))
  ∧ ∀ (d : DoorWrite) (named : Fin 64) (x : W32) (s : State), (d.offset ≠ 0 ∨ d.size ≠ 8 ∨ (d.fn ≠ 0 ∧ s.rsFn d.page.val ≠ d.fn.val)) →
    (∃ t, exec (.doorbellCommandProducer d named x) s = .next t ∧ t = s)
    ∧ (∃ t, exec (.doorbellCompletionConsumer d named x) s = .next t ∧ t = s)
    ∧ (∃ t, exec (.doorbellStreamProducer d named x) s = .next t ∧ t = s)
    ∧ (∃ t, exec (.doorbellEventConsumer d named x) s = .next t ∧ t = s)

/-- ENVELOPE_FETCH of a ring set that is not next in turn changes nothing. Where it is its turn and one envelope may be read,
which is a NOP (its opcode byte 0x00 at the entry that the consumer index names) that passes its checks in an office without
another task and is not QUIET, the envelope completes: the command consumer and completion producer indices have moved on by one,
its slot is free again and the turn goes to the next ring set. (spec/11_host_interface_and_rings.md § Envelopes and fetch,
spec/12_sorting_office.md § Fetch and back-pressure) -/
def Obligations.FetchTakesEnvelopesInTurn : Prop :=
  ∀ (k : Fin 64) (s : State),
    (s.fetchTurn ≠ some k.val → ∃ t, exec (.envelopeFetch k) s = .next t ∧ t = s)
    ∧ let e := readLE s.host (s.entryAddr k.val 0 64 (s.rs k.val).cmdCons.toNat) 64
      (s.fetchTurn = some k.val → s.readCount k.val = 1 → s.so.tasks = [] → decodeOp e = .nop → (decodeHdr k e).quiet = false →
        s.boot.stage = 5 →
        ∃ t, exec (.envelopeFetch k) s = .next t ∧ t.so.tasks = [] ∧ t.so.turn = (k.val + 1) % 64
          ∧ (t.rs k.val).cmdCons = (s.rs k.val).cmdCons + 1 ∧ (t.rs k.val).cplProd = (s.rs k.val).cplProd + 1
          ∧ SameButOffice s t)

/-- TASK_DISPATCH of a class whose only READY task is the office's only task puts it in service at its engine where a server of
the class is free. Of two READY NOPs, fetched from rings, the one of higher priority is taken, whichever became READY first, and
its slot is free while the other waits; at one priority the one that became READY first is taken. (spec/12_sorting_office.md §
Engine classes and priorities) -/
def Obligations.DispatchTakesHighestPriority : Prop :=
  (∀ (cls : Fin 9) (u : Machine.Task) (s : State), s.so.tasks = [u] → u.st = .ready → opClass u.op = cls.val →
    s.serverFree cls.val = true →
    ∃ t, exec (.taskDispatch cls) s = .next t
      ∧ t = engineOf u.op { u with st := .inService } { s with so := { s.so with tasks := [{ u with st := .inService }] } })
  ∧ ∀ (u v : Machine.Task) (s : State), s.so.tasks = [u, v] → u.st = .ready → v.st = .ready → u.op = .nop → v.op = .nop → v.courier = false →
    u.id ≠ v.id → u.waitsFor = [] → v.waitsFor = [] →
    (u.hdr.prio < v.hdr.prio ∨ (u.hdr.prio = v.hdr.prio ∧ v.readySeq < u.readySeq)) →
    ∃ t, exec (.taskDispatch 0) s = .next t ∧ t.task v.id = none ∧ (t.task u.id).isSome = true

/-- RING_SET_ENABLE of a DISABLED set makes it ENABLED, ENABLE reading 1, with every ring index 0 (on ring set 0 the event ring's
too) and its 64-byte write-back area zero, and of one that shuts down makes the enable wait. RING_SET_SHUTDOWN of an ENABLED set,
in an office without a task and with no open stream, makes it SHUTTING_DOWN with ENABLE reading 0 and its draft empty.
RING_SET_STATE of a set that shuts down, once no task and no stream of it is left, posts event RING_SET_STATE with STATE 0 and
whether an enable waits, and makes the set DISABLED; where an enable waited the set is then ENABLED at once with every index 0. No
other ring set changes. (spec/11_host_interface_and_rings.md § Ring sets) -/
def Obligations.RingSetLifeCycle : Prop :=
  ∀ (k : Fin 64) (s : State),
    ((s.rs k.val).st = .disabled →
      ∃ t, exec (.ringSetEnable k) s = .next t ∧ t = { s with regs := t.regs, hif := t.hif, host := t.host }
        ∧ (t.rs k.val).st = .enabled ∧ (t.rs k.val).cmdProd = 0 ∧ (t.rs k.val).cmdCons = 0 ∧ (t.rs k.val).cplProd = 0
        ∧ (t.rs k.val).cplCons = 0 ∧ (t.rs k.val).strProd = 0 ∧ (t.rs k.val).strCons = 0 ∧ (t.reg (aRs k.val 0x20)).testBit 0 = true
        ∧ (k = 0 → t.hif.evtProd = 0 ∧ t.hif.evtCons = 0)
        ∧ readLE t.host (s.reg64 (aRs k.val 0x18)) 64 = 0 ∧ ∀ j, j ≠ k.val → t.rs j = s.rs j)
    ∧ ((s.rs k.val).st = .shuttingDown →
      ∃ t, exec (.ringSetEnable k) s = .next t ∧ t.rs k.val = { s.rs k.val with enablePending := true }
        ∧ (∀ j, j ≠ k.val → t.rs j = s.rs j) ∧ t = { s with regs := t.regs, hif := t.hif, host := t.host })
    ∧ ((s.rs k.val).st = .enabled → s.so.tasks = [] → (∀ i, i < 16 → (s.stream i).isOpen = false) →
      ∃ t, exec (.ringSetShutdown k) s = .next t ∧ (t.rs k.val).st = .shuttingDown ∧ t.draft k.val = []
        ∧ (t.reg (aRs k.val 0x20)).testBit 0 = false ∧ (∀ j, j ≠ k.val → t.rs j = s.rs j)
        ∧ t = { s with regs := t.regs, rc := t.rc, hif := t.hif, host := t.host, cfg := { s.cfg with drafts := t.cfg.drafts } })
    ∧ ((s.rs k.val).st = .shuttingDown → s.rsTasks k.val = 0 → s.rsStreams k.val = false → (s.rs k.val).resetRegs = false →
      let u := ((s.event 5 k.val (4 * b2n (s.rs k.val).enablePending)).modRs k.val
        (fun r => { r with st := .disabled, enablePending := false, resetRegs := false, nextBase := [] })).writeBack k.val
      ((s.rs k.val).enablePending = false →
        ∃ t, exec (.ringSetState k) s = .next t ∧ t = u ∧ (t.rs k.val).st = .disabled ∧ SameButEvents s t)
      ∧ ((s.rs k.val).enablePending = true →
        ∃ t, exec (.ringSetState k) s = .next t ∧ t = u.enterEnabled k.val ∧ (t.rs k.val).st = .enabled ∧ (t.rs k.val).cmdProd = 0
          ∧ (t.rs k.val).cmdCons = 0 ∧ (t.rs k.val).cplProd = 0 ∧ (t.rs k.val).cplCons = 0 ∧ (t.rs k.val).strProd = 0
          ∧ (t.rs k.val).strCons = 0 ∧ SameButEvents s t))

/-- Where a resize of a ring is pending and the ring is empty, RING_RESIZED makes its length 2 to the pending power, puts a held
next base into force, clears both its indices and leaves no resize pending on it, then writes the write-back area and posts event
RING_RESIZED with the ring set, the ring and the new length's power. Where the SITES fields name another function for a site than
the grant in force and the site is IDLE, GRANT_APPLIED puts it in force, for that site alone, and posts event GRANT_APPLIED with
the site and the function. Only rings, their registers and what an event touches change. (spec/11_host_interface_and_rings.md §
Ring resize, spec/11_host_interface_and_rings.md § Functions and grants) -/
def Obligations.ResizeAndGrantApply : Prop :=
  (∀ (k : Fin 64) (r : Fin 4) (l : Nat) (s : State), tget none (s.rs k.val).resize r.val = some l → l < 32 →
    s.ringEmpty k.val r.val = true →
    ∃ t, ∃ v : State, exec (.ringResized k r) s = .next t ∧ v = { s with regs := v.regs, hif := v.hif }
      ∧ v.doorIndices k.val r.val = (0, 0) ∧ t = (v.writeBack k.val).event 3 (k.val + 256 * r.val) l
      ∧ t.ringLog k.val r.val = l ∧ tget none (t.rs k.val).resize r.val = none
      ∧ (∀ b, tget none (s.rs k.val).nextBase r.val = some b → t.ringBase k.val r.val = b.toNat)
      ∧ (r.val < 3 → t.doorIndices k.val r.val = (0, 0)) ∧ SameButEvents { s with regs := t.regs } t)
  ∧ ∀ (site : Fin 32) (s : State), s.siteTarget site.val ≠ s.siteFn site.val → (s.site site.val).st = .idle →
    ∃ t, exec (.grantApplied site) s = .next t ∧ t = (s.applyGrant site.val).event 6 site.val (s.siteTarget site.val)
      ∧ t.siteFn site.val = s.siteTarget site.val
      ∧ (∀ j, j ≠ site.val → t.siteFn j = s.siteFn j) ∧ SameButEvents s t

/-- With no task, no open stream and every site IDLE, VF_FLR of VF v leaves no ring set of v ENABLED and no ring set of another
function changed in state; LINK_RESET leaves no ring set ENABLED, no draft and no VF enabled, and asserts fault source 53 for a
hot reset and a loss of the link but not for a PF reset. A link that trains at 64 GT/s and x8 only records its rate, its width and
FLIT mode, which 64 GT/s always has; one that trains lower asserts source 54 as well. (spec/11_host_interface_and_rings.md § The
PCIe port, spec/11_host_interface_and_rings.md § Functions and grants, spec/19_fault_collection.md) -/
def Obligations.FunctionAndLinkResets : Prop :=
  (∀ (v : Fin 33) (s : State), v ≠ 0 → s.so.tasks = [] → (∀ i, i < 16 → (s.stream i).isOpen = false) →
    (∀ j, j < 32 → (s.site j).st = .idle) →
    ∃ t, exec (.vfFlr v) s = .next t ∧ (∀ k, k < 64 → s.rsFn k = v.val → (t.rs k).st ≠ .enabled)
      ∧ (∀ k, s.rsFn k ≠ v.val → (t.rs k).st = (s.rs k).st) ∧ t.sites = s.sites)
  ∧ (∀ (cause : Fin 3) (s : State), s.so.tasks = [] → (∀ i, i < 16 → (s.stream i).isOpen = false) →
    (∀ j, j < 32 → (s.site j).st = .idle) →
    ∃ t, exec (.linkReset cause) s = .next t ∧ (∀ k, k < 64 → (t.rs k).st ≠ .enabled) ∧ t.cfg.drafts = [] ∧ t.hif.vfEnabled = 0
      ∧ (cause ≠ 0 → (t.src 53).sticky = true) ∧ (cause = 0 → t.fc = s.fc))
  ∧ ∀ (rate : Fin 4) (width : Nat) (flit : Bool) (s : State),
    let s' : State := { s with hif := { s.hif with rate := rate.val, width := width, flit := rate == 3 || flit } }
    (rate = 3 → 8 ≤ width → ∃ t, exec (.pcieLinkTrained rate width flit) s = .next t ∧ t = s')
    ∧ (rate ≠ 3 ∨ width < 8 → ∃ t, exec (.pcieLinkTrained rate width flit) s = .next t ∧ (t.src 54).sticky = true
        ∧ t.hif.rate = rate.val ∧ t.hif.width = width ∧ t.hif.flit = (rate == 3 || flit) ∧ SameButEvents s' t)

/-- MSIX_SIGNAL_TIMEOUT of a completion or stream ring with unsignalled entries comes TIME_US after the first of them, starts the
count afresh and sends the ring's vector where it is enabled and unmasked. MSIX_UNMASK of a function's vector unmasks it, and
where its message is pending sends it and clears the pending bit; other vectors keep theirs. Nothing else changes.
(spec/11_host_interface_and_rings.md § Interrupts) -/
def Obligations.InterruptsAreCoalescedAndMasked : Prop :=
  (∀ (k : Fin 64) (ring : Fin 3) (t0 fn v : Nat) (s : State), ring.val < 2 → (s.sigState k.val (ring.val + 1)).2 = some t0 →
    s.ringVector k.val (ring.val + 1) = some (fn, v) → v < (if fn = 0 then 128 else 4) → fn * 128 + v ∈ s.hif.unmasked →
    ∃ t, exec (.msixSignalTimeout k ring) s = .next t ∧ t.out = .msix fn v :: s.out
      ∧ t.now = max s.now (t0 + fld (s.reg (aRs k.val 0x28)) 24 8 * 8000000) ∧ t.sigState k.val (ring.val + 1) = (0, none)
      ∧ t = { s with now := t.now, hif := t.hif, out := t.out })
  ∧ ∀ (fn : Fin 33) (v : Fin 128) (s : State), (fn = 0 ∨ v.val < 4) →
    ∃ t, exec (.msixUnmask fn v) s = .next t ∧ fn.val * 128 + v.val ∈ t.hif.unmasked
      ∧ fn.val * 128 + v.val ∉ t.hif.msixPending
      ∧ (∀ x, x ≠ fn.val * 128 + v.val → (x ∈ t.hif.msixPending ↔ x ∈ s.hif.msixPending))
      ∧ t.out = (if fn.val * 128 + v.val ∈ s.hif.msixPending then .msix fn.val v.val :: s.out else s.out)
      ∧ t = { s with hif := t.hif, out := t.out }

/-- A write to the set-up window (its 1 MB) of a size other than 4 and 8 or off its alignment changes nothing. In READY a PF write
of SO_DELAY_TICK sets TICK_US where it is not zero, and leaves every register where it is zero. A VF's write to an address outside
its own ring-set blocks changes nothing. READ_CLEAR of an exposed counter returns its count, taken up to the moment of the read,
and leaves what arrived in that cycle; of any other address it returns 0. In READY a read of SYS_CV_COMMIT_SEQ returns the
sequence number and latches the committed-set digest. (spec/21_setup_registers.md, spec/12_sorting_office.md § Registers,
spec/12_sorting_office.md § The delay list) -/
def Obligations.RegisterAccesses : Prop :=
  (∀ (fn : Fin 33) (addr size : Nat) (v : BitVec 64) (s : State), addr < 2 ^ 20 → ((size ≠ 4 ∧ size ≠ 8) ∨ addr % size ≠ 0) →
    ∃ t, exec (.registerWrite fn addr size v) s = .next t ∧ t = s)
  ∧ (∀ (v : BitVec 64) (s : State), s.boot.stage = 5 → s.boot.porLow = false →
    ∃ t, exec (.registerWrite 0 0x4004 4 v) s = .next t ∧ t = { s with regs := t.regs, hif := { s.hif with heldLow := t.hif.heldLow } }
      ∧ (∀ a, a ≠ 0x4004 → t.reg a = s.reg a)
      ∧ t.reg aDelayTick = putFld (s.reg aDelayTick) 0 16 (if v.toNat % 65536 = 0 then fld (s.reg aDelayTick) 0 16 else v.toNat))
  ∧ (∀ (fn : Fin 33) (addr : Nat) (v : BitVec 64) (s : State), fn ≠ 0 → addr < 2 ^ 20 → addr % 4 = 0 →
    (4096 ≤ addr ∨ s.rsFn (addr / 64) ≠ fn.val ∨ addr % 64 = 0x34) →
    ∃ t, exec (.registerWrite fn addr 4 v) s = .next t ∧ t = s)
  ∧ (∀ (addr n : Nat) (s : State), isRc addr = true → addr % 4 = 0 → s.exposedPf addr = true →
    let u := s.settleFor addr
    ∃ t, exec (.readClear addr n) s = .next t ∧ t = { u with rc := t.rc, out := t.out }
      ∧ t.out = .readValue addr (u.regValue addr) :: u.out ∧ t.rcOf addr = min n 0xFFFFFFFF ∧ (∀ a, a ≠ addr → t.rcOf a = u.rcOf a)
      ∧ ((addr < 0x6000 ∨ (0x6400 ≤ addr ∧ addr < 0x9100) ∨ 0x9300 ≤ addr) → u = s))
  ∧ (∀ (addr n : Nat) (s : State), isRc addr = false →
    ∃ t, exec (.readClear addr n) s = .next t ∧ t = { s with out := .readValue addr 0 :: s.out })
  ∧ ∀ s : State, s.boot.stage = 5 →
    ∃ t, exec .sysCvCommitSeqRead s = .next t
      ∧ t = { s with cfg := { s.cfg with latchedDigest := s.digest }, out := .readValue 0x10000 s.cfg.commitSeq :: s.out }

/-- From 1 ms after POR_N rose, while the STATUS byte is what it last was, each SMBus read only puts its answer out: the part
number 0x5128, the STATUS byte, the die temperature as a signed byte and the serial number. Where ALERT_N is low, the alert
response is answered and ALERT_N released, and nothing else changes. Before that, and while POR_N is low, no SMBus command does
anything. (spec/22_balls_electrical_package.md, spec/20_boot_security_update.md) -/
def Obligations.SmbusAnswers : Prop :=
  ∀ s : State, (s.smbAnswers = true →
    (s.statusByte = s.boot.smbStatus →
      (∃ t, exec .smbusReadPart s = .next t ∧ t = { s with out := .smbus 0x5128 :: s.out })
      ∧ (∃ t, exec .smbusReadStatus s = .next t ∧ t = { s with out := .smbus s.statusByte :: s.out })
      ∧ (∃ t, exec .smbusReadTemperature s = .next t ∧ t = { s with out := .smbus (ofSigned 8 s.boot.thermTemp) :: s.out })
      ∧ ∃ t, exec .smbusReadSerial s = .next t ∧ t = { s with out := .smbus Config.serial.toNat :: s.out })
    ∧ (s.boot.alertLow = true → ∃ t, exec .alertResponse s = .next t
        ∧ t = { s with boot := { s.boot with alertLow := false }, out := .alertResponse :: s.out }))
  ∧ (s.smbAnswers = false → ∃ t, exec .smbusReadPart s = .next t ∧ exec .smbusReadStatus s = .next t
      ∧ exec .smbusReadTemperature s = .next t ∧ exec .smbusReadSerial s = .next t ∧ exec .alertResponse s = .next t ∧ t = s)

/-- Where every member of the site's group is IDLE or ARMED, no RUN waits, no group sleeps, the start is at an instant where a
member has CS, and the segment is one of the start entries, and the group is not ARMED for that segment already: RUN records its
start condition as the waiting RUN of the lead member and ARM records none; every member is ARMED, the preparation for the segment
is not complete, and only sites, groups, the office and SO_PAUSES have changed. A RUN of a segment that is no start entry
completes with NOT_PERMITTED. (spec/04_sequencer.md § Starting a run, spec/04_sequencer.md § Sequencer states) -/
def Obligations.RunAndArmPrepare : Prop :=
  ∀ (h : Hdr) (site seg : Nat) (s : State), s.startable site = true → (s.site (s.leadSite site)).req = none →
    s.asleepSite site = false → ¬ ((s.site (s.leadSite site)).st = .armed ∧ (s.site (s.leadSite site)).prepSeg = seg) →
    (∀ start input falling secs tu, Accepts s h (.run site start input falling seg secs tu) →
      ((∃ m ∈ groupOf s.cv site, siteOn s.cv m mCS = true) → start = 2) → seg ∈ startList s.cv site →
      ∃ t, exec (.run h site start input falling seg secs tu) s = .next t
        ∧ (t.site (s.leadSite site)).req = some ⟨s.so.nextId, site, start, input, falling, seg, secs, tu⟩
        ∧ (t.site (s.leadSite site)).prepSeg = seg ∧ (t.site (s.leadSite site)).prepared = false
        ∧ (∀ m ∈ groupOf s.cv (s.leadSite site), (t.site m).st = .armed)
        ∧ t = { s with so := t.so, rc := t.rc, sites := t.sites, groups := t.groups })
    ∧ (Accepts s h (.arm site 0 seg) → seg ∈ startList s.cv site →
      ∃ t, exec (.arm h site seg) s = .next t ∧ (t.site (s.leadSite site)).req = none
        ∧ (t.site (s.leadSite site)).prepSeg = seg ∧ (t.site (s.leadSite site)).prepared = false
        ∧ (∀ m ∈ groupOf s.cv (s.leadSite site), (t.site m).st = .armed)
        ∧ t = { s with so := t.so, rc := t.rc, sites := t.sites, groups := t.groups })
    ∧ ∀ start input falling secs tu, Accepts s h (.run site start input falling seg secs tu) → seg ∉ startList s.cv site →
      s.so.tasks = [] → h.quiet = false →
      ∃ t, exec (.run h site start input falling seg secs tu) s = .next t ∧ Completed s t h 4 0 ∧ SameButOffice s t

/-- An accepted ARM in the request form, of an ungrouped site in RUN or HOLD in an office without another task, sets the host-
request latch (jump source 17) to the time of the dispatch counted from the site's epoch and completes with OK. An accepted STOP
of a site in RUN or HOLD with no STOP before it makes the site stop at a boundary to come and holds its slot; of an IDLE site, in
an office without another task, it completes with OK and the site stays. (spec/04_sequencer.md § Jumps and the decision point,
spec/04_sequencer.md § Sequencer states) -/
def Obligations.HostRequestAndStop : Prop :=
  ∀ (h : Hdr) (site : Nat) (s : State),
    (cvBgroup s.cv site = 0 → Accepts s h (.arm site 1 0) → s.so.tasks = [] → h.quiet = false →
      (s.site site).st = .run ∨ (s.site site).st = .hold →
      ∃ t, exec (.armHostRequest h site) s = .next t
        ∧ (t.site site).latches = setLatch (s.site site).latches 34 ((s.now : Int) - (s.site site).epoch)
        ∧ Completed s t h 0 0 ∧ SameButOffice { s with sites := t.sites } t)
    ∧ (Accepts s h (.stop site) → s.idsFresh → (s.site site).st = .run ∨ (s.site site).st = .hold → (s.site site).stopReq = none →
      ∃ t, exec (.stop h site) s = .next t ∧ t.site site = { s.site site with stopReq := some (s.now, 1) }
        ∧ t.task s.so.nextId = some (taskOf s h (.stop site)) ∧ t = { s with so := t.so, rc := t.rc, sites := t.sites })
    ∧ (Accepts s h (.stop site) → s.so.tasks = [] → h.quiet = false → (s.site site).st = .idle →
      ∃ t, exec (.stop h site) s = .next t ∧ Completed s t h 0 0 ∧ SameButOffice s t)

/-- PREPARATION_COMPLETE of an ARMED, unprepared group whose prefetch is filled and whose recalibrations have ended, with no RUN
waiting and no task about, fills the pigeonholes of the residents that the walk reaches, which its members then hold, and marks
the lead member prepared now; no site outside the group changes, and nothing else does. RUN_EPOCH of a prepared RUN whose epoch is
known, with nothing that holds the start off and no commit pending, brings the clock to the epoch and puts every ARMED member in
RUN there with vector index 0, start-time accumulator 0 and the RUN's start segment. (spec/04_sequencer.md § Starting a run,
spec/01_architecture.md) -/
def Obligations.PreparationAndEpoch : Prop :=
  ∀ (site : Fin 32) (s : State),
    ((s.site (s.leadSite site.val)).st = .armed → (s.site (s.leadSite site.val)).prepared = false →
      (∀ k, (s.site (s.leadSite site.val)).walker = some k → k.ended = true ∨ 8192 ≤ (s.site (s.leadSite site.val)).prefetch.length) →
      (s.site (s.leadSite site.val)).req = none → s.so.tasks = [] →
      (∀ g, ∀ p ∈ (s.group g).queue, p.phase = 0 → p.task ≠ none) →
      ∃ t, exec (.preparationComplete site) s = .next t ∧ (t.site (s.leadSite site.val)).prepared = true
        ∧ (t.site (s.leadSite site.val)).prepAt = s.now ∧ (t.site (s.leadSite site.val)).st = .armed
        ∧ t = (s.modSite (s.leadSite site.val) (fun x => { x with prepared := true, prepAt := s.now })).holdHoles (s.leadSite site.val)
        ∧ (∀ j, j ≠ s.leadSite site.val → j ∉ groupOf s.cv (s.leadSite site.val) → t.site j = s.site j)
        ∧ t = { s with sites := t.sites, mem := { s.mem with holes := t.mem.holes } })
    ∧ ∀ r b, (s.site (s.leadSite site.val)).req = some r → s.epochOf (s.leadSite site.val) = some b →
        (s.site (s.leadSite site.val)).st = .armed → s.startBlocked (s.leadSite site.val) = false → s.cfg.pending = none →
        ∃ t, exec (.runEpoch site) s = .next t ∧ t.now = max s.now b
          ∧ ∀ m ∈ s.membersIn (s.leadSite site.val) (· == .armed),
              (t.site m).st = .run ∧ (t.site m).epoch = b ∧ (t.site m).vec = 0 ∧ (t.site m).acc = 0 ∧ (t.site m).seg = r.seg

/-- VECTOR_ISSUE of a walk whose supplied sites are all in RUN, whose next boundary nothing holds, before and after the strobes
due at it are judged, and whose line the prefetch, a pigeonhole or SV off supplies: on the site that carries the walk the start-
time accumulator grows by the PERIOD of the entry in force, the vector index and the index within the pass by one; every supplied
site shares the accumulator and index and stays in RUN, and the root clock has reached the vector's start. In HOLD (a site in no
broadcast group) the accumulator grows by the period in force and the vector index stays. PREFETCH_FILL of a live, trained walker
with room that stands at a line appends that line, as the decoder reads it, to the prefetch and moves the walker on.
(spec/02_waveforms_and_timing.md, spec/04_sequencer.md § Sequencer states, spec/04_sequencer.md § The walk) -/
def Obligations.VectorsAndHoldSlots : Prop :=
  ∀ (site : Fin 32) (s : State),
    let w := s.leadSite site.val
    let x := s.site w
    (s.walkers w ≠ [] → (∀ m ∈ s.walkers w, (s.site m).st = .run) → s.walkHeld w = false → (s.curLine w).isSome = true →
      x.v < segLength (s.curEntry x) → (s.boundary w).walkHeld w = false →
      ∃ t, exec (.vectorIssue site) s = .next t
        ∧ (t.site w).acc = x.acc + cvPeriod s.cv w (s.curEntry x) ∧ (t.site w).vec = x.vec + 1 ∧ (t.site w).v = x.v + 1
        ∧ (∀ m ∈ s.walkers w, (t.site m).acc = (t.site w).acc ∧ (t.site m).vec = (t.site w).vec ∧ (t.site m).st = .run)
        ∧ x.epoch + x.acc ≤ t.now)
    ∧ (cvBgroup s.cv site.val = 0 → (s.site site.val).st = .hold → s.walkHeld site.val = false →
      ∃ t, exec (.vectorIssue site) s = .next t
        ∧ (t.site site.val).acc = (s.site site.val).acc + cvPeriod s.cv site.val
            (if (s.site site.val).ord = 0 then s.curEntry (s.site site.val) else (s.site site.val).entry)
        ∧ (t.site site.val).vec = (s.site site.val).vec ∧ (t.site site.val).st = .hold)
    ∧ ∀ (k : Walker) (errs : Errors), x.walker = some k → (x.st = .armed ∨ s.walkers w ≠ []) → s.misfetched w = false →
        walkerAtLine s.walkCv w k = true → s.trained = true → x.prefetch.length < 8192 →
        let a := segLine k.entry + k.line
        let r := s.memRead a errs
        ∃ t l, exec (.prefetchFill site errs) s = .next t
          ∧ t = r.1.modSite w (fun y => { y with prefetch := x.prefetch ++ [l], walker := some (walkerStep s.walkCv w k) })
          ∧ l.addr = a ∧ l.data = r.2.1 ∧ l.poisoned = r.2.2.1

/-- DECISION_POINT on an ungrouped walking site whose pass has issued its decision vector and has not decided, on a source other
than 19 and 20: with the strobes up to then judged, the pass is decided, and it jumps exactly where the examined latch holds a
request from before the decision vector's start; a latch that makes it jump is cleared. MATCH_CONDITION of a source-20 decision
whose verdict has been given decides the pass: it jumps exactly where the device is in the group and the group's last RESULT is 1
for the decision vector's index. (spec/04_sequencer.md § Jumps and the decision point, spec/04_sequencer.md § Match loops,
spec/14_hierarchy_and_postmark_time.md) -/
def Obligations.DecisionsFollowLatches : Prop :=
  (∀ (site : Fin 32) (p n : Nat) (s : State), cvBgroup s.cv site.val = 0 → (s.site site.val).st = .run →
    (s.site site.val).tdp = some (p, n) → (s.site site.val).decided = false → segJumps (s.site site.val).entry = true →
    (s.site site.val).sysMatch = none →
    let s0 := s.advance ((s.site site.val).epoch + p + 64000)
    let s1 := s0.settleTo site.val (s.site site.val).acc
      (judgeLimit (s.site site.val) ((s0.now : Int) - (s.site site.val).epoch)) ((p : Int) - 64000)
    segSource (s1.site site.val).entry ≠ 19 → segSource (s1.site site.val).entry ≠ 20 →
    ∃ t, exec (.decisionPoint site) s = .next t ∧ (t.site site.val).decided = true
      ∧ ((t.site site.val).jump = true ↔
          ∃ u, tget none (s1.site site.val).latches (latchKey (s1.site site.val).entry) = some u ∧ u < (p : Int))
      ∧ ((t.site site.val).jump = true → tget none (t.site site.val).latches (latchKey (s1.site site.val).entry) = none))
  ∧ ∀ (site : Fin 32) (p n : Nat) (s : State), cvBgroup s.cv site.val = 0 → (s.site site.val).st = .run →
      (s.site site.val).tdp = some (p, n) → (s.site site.val).decided = false → segSource (s.site site.val).entry = 20 →
      (s.site site.val).sysMatch.isSome = true →
      ∃ t, exec (.matchCondition site) s = .next t ∧ (t.site site.val).decided = true
        ∧ ((t.site site.val).jump = true ↔ ((s.site site.val).joined.isSome = true
            ∧ (s.mgroup (matchGroupOf s.cv site.val)).result = some (n % 2 ^ 52, true)))

/-- PASS_BOUNDARY of an ungrouped site in RUN whose pass has run to its length, whose decision (if any) is taken and whose entry
has no CHECK: a taken jump begins the target's first pass with the stack as it was, overriding END and RETURN; otherwise, with
passes left, the next pass of the same segment begins; otherwise (no MATCH jump) CALL pushes NEXT and enters JUMP_TARGET, RETURN
pops, END goes to DRAIN, and any other entry follows NEXT. (spec/04_sequencer.md § Jumps and the decision point,
spec/04_sequencer.md § The call stack, spec/04_sequencer.md § The walk) -/
def Obligations.PassBoundaryFollowsTable : Prop :=
  ∀ (site : Fin 32) (s : State), cvBgroup s.cv site.val = 0 → (s.site site.val).st = .run → (s.site site.val).started = true →
    segLength (s.site site.val).entry ≤ (s.site site.val).v → segCheck (s.site site.val).entry = false →
    (segJumps (s.site site.val).entry = true → (s.site site.val).tdp.isSome = true → (s.site site.val).decided = true) →
    let x := s.site site.val
    let e := x.entry
    (x.jump = true →
      ∃ t, exec (.passBoundary site) s = .next t ∧ (t.site site.val).seg = segTarget e ∧ (t.site site.val).pass = 0
        ∧ (t.site site.val).stack = x.stack ∧ (t.site site.val).v = 0 ∧ (t.site site.val).st = .run
        ∧ t = { s with now := max s.now (x.epoch + x.acc), sites := t.sites })
    ∧ (x.jump = false → x.pass < segRepeat e →
      ∃ t, exec (.passBoundary site) s = .next t ∧ (t.site site.val).seg = x.seg ∧ (t.site site.val).pass = x.pass + 1
        ∧ (t.site site.val).stack = x.stack ∧ (t.site site.val).v = 0 ∧ (t.site site.val).st = .run
        ∧ t = { s with now := max s.now (x.epoch + x.acc), sites := t.sites })
    ∧ (x.jump = false → segRepeat e ≤ x.pass → (segMatch e && segJumps e) = false → segEnd e = false →
      ∀ n st, (segCall e = true ∧ n = segTarget e ∧ st = segNext e :: x.stack)
          ∨ (segCall e = false ∧ segReturn e = true ∧ x.stack = n :: st)
          ∨ (segCall e = false ∧ segReturn e = false ∧ n = segNext e ∧ st = x.stack) →
      ∃ t, exec (.passBoundary site) s = .next t ∧ (t.site site.val).seg = n ∧ (t.site site.val).stack = st
        ∧ (t.site site.val).pass = 0 ∧ (t.site site.val).v = 0 ∧ (t.site site.val).st = .run
        ∧ t = { s with now := max s.now (x.epoch + x.acc), sites := t.sites })
    ∧ (x.jump = false → segRepeat e ≤ x.pass → (segMatch e && segJumps e) = false → segEnd e = true →
      s.so.tasks = [] → s.cfg.pending = none → x.surveys = [] → x.left = none →
      ∃ t, exec (.passBoundary site) s = .next t ∧ (t.site site.val).st = .drain ∧ (t.site site.val).endReason = 0
        ∧ (t.site site.val).left = some (x.vec, x.seg))

/-- CHECK_REREAD_COMPLETE of an ungrouped site takes the first re-read off its list; the segment becomes SUSPECT where both reads
were clean, agree with each other and differ from the FRANK in force (and it is marked as mismatching), and otherwise the suspects
stay as they were. Nothing but the site's record changes. (spec/04_sequencer.md § Check values, poisoned lines and the run
outcome) -/
def Obligations.RereadsMarkSuspect : Prop :=
  ∀ (site : Fin 32) (clean : Bool) (f1 f2 : W32) (seg frank : Nat) (rest : List (Nat × Nat)) (s : State),
    cvBgroup s.cv site.val = 0 → (s.site site.val).rereads = (seg, frank) :: rest →
    ∃ t, exec (.checkRereadComplete site clean f1 f2) s = .next t ∧ (t.site site.val).rereads = rest ∧ t = { s with sites := t.sites }
      ∧ (clean = true → f1 = f2 → f1.toNat ≠ frank → seg ∈ (s.site site.val).mismatch → seg ∈ (t.site site.val).suspect)
      ∧ ((clean = false ∨ f1 ≠ f2 ∨ f1.toNat = frank) → (t.site site.val).suspect = (s.site site.val).suspect)

/-- On an ungrouped site with no task about and no commit pending: UNDERRUN in RUN of a streamed segment with an empty prefetch at
an unheld boundary makes it STARVED and asserts source 35. STOP_BOUNDARY with a STOP that waits and no park reaction before it
makes the site DRAIN with the STOP's reason, the vectors applied recorded and no STOP left. STOP_ON_FAIL, once the boundary is at
or after its moment and nothing goes before it, makes the site DRAIN with reason 3. DRAIN_COMPLETE with no re-read outstanding
brings the clock to the last pending edge and the end of the stamps, judges what is left, and then makes it IDLE with no RUN left,
or, while a record of the site has not been handed to the acquisition stream, leaves it in DRAIN. (spec/04_sequencer.md §
Sequencer states, spec/04_sequencer.md § Starve, spec/05_response_path.md § Stop-on-fail) -/
def Obligations.WalksEndInOrder : Prop :=
  ∀ (site : Fin 32) (s : State), cvBgroup s.cv site.val = 0 → s.so.tasks = [] → s.cfg.pending = none → (s.site site.val).surveys = [] →
    let x := s.site site.val
    (x.st = .run → s.walkHeld site.val = false → isStreamed s.cv site.val (s.curEntry x) = true → x.prefetch = [] →
      x.v < segLength (s.curEntry x) →
      ∃ t, exec (.underrun site) s = .next t ∧ (t.site site.val).st = .starved ∧ (t.src 35).sticky = true)
    ∧ (∀ at_ reason, x.st = .run ∨ x.st = .hold → x.stopReq = some (at_, reason) → s.reactionFirst site.val = false →
        segCheck x.entry = false → x.left = none →
        ∃ t, exec (.stopBoundary site) s = .next t ∧ (t.site site.val).st = .drain ∧ (t.site site.val).endReason = reason
          ∧ (t.site site.val).left = some (x.vec, x.seg) ∧ (t.site site.val).stopReq = none ∧ t.now = max s.now (x.epoch + x.acc))
    ∧ (∀ u, x.st = .run ∨ x.st = .hold → x.failStop = some u → u ≤ (x.acc : Int) → x.stopReq = none →
        s.reactionFirst site.val = false → segCheck x.entry = false →
        ∃ t, exec (.stopOnFail site) s = .next t ∧ (t.site site.val).st = .drain ∧ (t.site site.val).endReason = 3)
    ∧ (x.st = .drain → x.rereads = [] →
        let stamps := (s.siteChans site.val).foldl (fun m c => max m (cvKC s.cv c)) 0
        let v := (s.advance ((x.epoch : Int) + s.lastPending site.val (x.tClose.getD 0 + stamps)).toNat).finishRun site.val
        (v.recordsWait site.val = true → ∃ t, exec (.drainComplete site) s = .next t ∧ t = v)
        ∧ (v.recordsWait site.val = false →
          ∃ t, exec (.drainComplete site) s = .next t ∧ (t.site site.val).st = .idle ∧ (t.site site.val).req = none))

/-- On an ungrouped site: where a park reaction holds one of its groups, an IDLE site becomes PARKED. Where none does, a site in
RUN that a hold reaction covers enters HOLD at its boundary, one in HOLD that none covers any more returns to RUN, and a PARKED
one returns to IDLE where no commit is pending. (spec/01_architecture.md, spec/04_sequencer.md § Sequencer states,
spec/19_fault_collection.md) -/
def Obligations.ReactionsParkAndHold : Prop :=
  ∀ (site : Fin 32) (s : State), cvBgroup s.cv site.val = 0 →
    let x := s.site site.val
    (s.siteParked site.val = true → x.st = .idle →
      ∃ t, exec (.reactionBoundary site) s = .next t ∧ (t.site site.val).st = .parked)
    ∧ (s.siteParked site.val = false →
      (x.st = .run → s.siteHeld site.val = true →
        ∃ t, exec (.reactionBoundary site) s = .next t ∧ (t.site site.val).st = .hold ∧ t.now = max s.now (x.epoch + x.acc)
          ∧ t = (((s.advance (x.epoch + x.acc)).siteBoundary site.val site.val).modSite site.val
              (fun y => { y with st := .hold, conditions := y.conditions ||| 0x40 })).endSurveys site.val)
      ∧ (x.st = .hold → s.siteHeld site.val = false →
        ∃ t, exec (.reactionBoundary site) s = .next t ∧ t.site site.val = { x with st := .run }
          ∧ t = { s with now := max s.now (x.epoch + x.acc), sites := t.sites })
      ∧ (x.st = .parked → s.cfg.pending = none →
        ∃ t, exec (.reactionBoundary site) s = .next t ∧ (t.site site.val).st = .idle))

/-- A crossing to the level that the comparator has already only brings the clock to its time. One that changes the level and is
not older than the newest sample changes that comparator's level and not the other's, and no other channel; on a channel of no
site, of a site that is IDLE or ARMED, or outside the run's span, that is all. Otherwise, where no earlier stamp waits: while a
vector that could hold the stamp may still be issued it waits; then it is placed under the setting of the vector that it belongs
to, of its own time where it belongs to none. A crossing that EP off or the setting's comparator and sense leave out only changes
the level. One less than 200 ps (1,600 TU) after the channel's last stamp is counted as dead; any other becomes the last stamp
and, unless windows are on and it lies in none, takes the next number; where its setting sends POSTMARK records of every stamp and
the queue has room and has dropped none, its record, with its sense, channel and time, goes to the queue's end.
(spec/06_edge_postmarks.md, spec/02_waveforms_and_timing.md) -/
def Obligations.CrossingsAreSampledAndStamped : Prop :=
  ∀ (c : Fin 128) (comp : Comparator) (asserted : Bool) (u : Nat) (s : State),
    let x := s.chan c.val
    let old := match comp with | .ch => (chanLevels x).1 | .cl => (chanLevels x).2
    let pin : PinSample := match comp with
      | .ch => { t := u, ch := asserted, cl := (chanLevels x).2 }
      | .cl => { t := u, ch := (chanLevels x).1, cl := asserted }
    (old = asserted → ∃ t, exec (.dutCrossing c comp asserted u) s = .next t ∧ t = s.advance u)
    ∧ (old ≠ asserted → (∀ p ∈ x.pins, p.t ≤ u) →
      (s.siteOf c.val = none →
        ∃ t, exec (.dutCrossing c comp asserted u) s = .next t ∧ t = (s.advance u).setChan c.val { x with pins := pin :: x.pins })
      ∧ ∀ k, s.siteOf c.val = some k →
          let p := s.stampOf k c.val comp asserted u
          let v := s.pmVector k c.val p.t
          let set := match (s.site k).recent.find? (fun m => some m.ord == v) with
            | some m => s.pmAt k c.val m.start
            | none => s.pmAt k c.val p.t
          let live := (s.site k).st ≠ .idle ∧ (s.site k).st ≠ .armed ∧ inSpan (s.site k) p.t = true
          let ready := pmReady s.cfg.committed k (s.site k) p.t = true
          let counted := set.2 = true ∧ pmSelects set.1 p = true
          (¬ live → ∃ t, exec (.dutCrossing c comp asserted u) s = .next t
            ∧ t = (s.advance u).setChan c.val { x with pins := pin :: x.pins })
          ∧ (live → x.pmWait = [] →
            (¬ ready → ∃ t, exec (.dutCrossing c comp asserted u) s = .next t
              ∧ t.chan c.val = { x with pins := pin :: x.pins, pmWait := [p] } ∧ (∀ d, d ≠ c.val → t.chan d = s.chan d)
              ∧ t = { s with now := max s.now u, chans := t.chans })
            ∧ (ready → ¬ counted → ∃ t, exec (.dutCrossing c comp asserted u) s = .next t
              ∧ t.chan c.val = { x with pins := pin :: x.pins } ∧ (∀ d, d ≠ c.val → t.chan d = s.chan d)
              ∧ t = { s with now := max s.now u, chans := t.chans })
            ∧ (ready → counted → (∃ l, x.pmLast = some l ∧ p.t < l + 1600) →
              ∃ t, exec (.dutCrossing c comp asserted u) s = .next t
                ∧ t.chan c.val = { x with pins := pin :: x.pins, pmDead := satAdd 32 x.pmDead 1 }
                ∧ (∀ d, d ≠ c.val → t.chan d = s.chan d) ∧ t = { s with now := max s.now u, chans := t.chans })
            ∧ (ready → counted → (∀ l, x.pmLast = some l → l + 1600 ≤ p.t) →
              ∃ t, exec (.dutCrossing c comp asserted u) s = .next t
                ∧ (t.chan c.val).pins = pin :: x.pins ∧ (t.chan c.val).pmLast = some p.t ∧ (t.chan c.val).pmDead = x.pmDead
                ∧ (t.chan c.val).pmWait = [] ∧ (∀ d, d ≠ c.val → t.chan d = s.chan d)
                ∧ (t.chan c.val).pmNum = (if set.1.testBit 6 = true ∧ v = none then x.pmNum else x.pmNum + 1)
                ∧ (¬ (set.1.testBit 6 = true ∧ v = none) → fld set.1 4 2 = 0 → set.1.testBit 3 = true → x.pmDropGap = 0 →
                    qLen x.pmQ < 4096 → (t.chan c.val).pmQ = x.pmQ ++
                      [BitVec.ofNat 64 (2 ^ 61 + 2 ^ 60 * b2n p.rising + 2 ^ 53 * c.val + ofSigned 53 p.t)])
                ∧ t = { s with now := max s.now u, chans := t.chans, sites := t.sites, slots := t.slots })))

/-- INTERVAL_LATCH of an enabled slot of a site that is not closed first places the waiting stamps of its channels. Where a REPORT
period has ended and every stamp of its vectors has been seen on both channels, the slot latches and waits for the next period's
end. Where none has ended and every stamp before the run's t_close has been seen on both channels, the slot latches for the last
time and closes. A latch clears count, misses, sum and sum of squares and puts the latched summary with the slot's number, its
site and its KIND at the end of the summary queue; no other slot and nothing else changes. Where neither can be latched yet, and
of a slot of no site, a disabled one and a closed one, nothing changes. (spec/06_edge_postmarks.md,
spec/09_acquisition_and_triggers.md § Postbags) -/
def Obligations.IntervalSlotsLatch : Prop :=
  ∀ (slot : Fin 64) (s : State),
    let w := s.pairWord slot.val
    (∀ k, s.slotSite slot.val = some k → pairOn w = true → (s.slot slot.val).closed = false →
      let u := (s.settleStamps k (pairA w)).settleStamps k (pairB w)
      let seen : Int → Prop := fun b => b ≤ u.stampBound k (pairA w) ∧ b ≤ u.stampBound k (pairB w)
      let periodSeen := ∀ m ∈ (u.site k).recent, m.ord < (u.slot slot.val).nextLatch →
        u.vectorEnd k (pairA w) m ≤ u.stampBound k (pairA w) ∧ u.vectorEnd k (pairB w) m ≤ u.stampBound k (pairB w)
      let latched : State → Bool → Prop := fun t final => ∃ v, (t.slot slot.val).latched = BitVec.ofNat 512 v
        ∧ (t.slot slot.val).closed = final ∧ (t.slot slot.val).count = 0 ∧ (t.slot slot.val).miss = 0
        ∧ (t.slot slot.val).sum = 0 ∧ (t.slot slot.val).sumsq = 0
        ∧ t.acq = { u.acq with summaryQ := u.acq.summaryQ ++
            [BitVec.ofNat 576 (slot.val + 2 ^ 8 * k + 2 ^ 16 * pairKind w + 2 ^ 64 * v)] }
        ∧ (∀ j, j ≠ slot.val → t.slot j = u.slot j) ∧ t = { u with slots := t.slots, acq := t.acq }
      (0 < u.reportsDue k slot.val → periodSeen → ∃ t, exec (.intervalLatch slot) s = .next t ∧ latched t false
        ∧ (t.slot slot.val).nextLatch = (u.slot slot.val).nextLatch + pairReport w)
      ∧ (∀ c, u.reportsDue k slot.val = 0 → (u.site k).tClose = some c → seen c →
        ∃ t, exec (.intervalLatch slot) s = .next t ∧ latched t true)
      ∧ ((0 < u.reportsDue k slot.val ∧ ¬ periodSeen)
          ∨ (u.reportsDue k slot.val = 0 ∧ ∀ c, (u.site k).tClose = some c → ¬ seen c) →
        ∃ t, exec (.intervalLatch slot) s = .next t ∧ t = s))
    ∧ (s.slotSite slot.val = none ∨ pairOn w = false ∨ (s.slot slot.val).closed = true →
      ∃ t, exec (.intervalLatch slot) s = .next t ∧ t = s)

/-- EPOCH_PAIR_DUE of a site in RUN or HOLD, or in DRAIN before its t_close, appends the pair of the PTU time at epoch + n x 2^50
TU to its marks and counts it. Of a stream that takes records it counts the stream's next pair at the stream's own epoch; where
the stream is no input of the CSP and its open bag has room, the pair goes to the end of that bag. Of any other site or stream it
changes nothing. On a device that is no Branch, a high OCXO sample after three in a row sets TB_WARM, with its event where it was
clear; a high sample after fewer only counts. A low sample clears TB_WARM and the run of samples; where TB_WARM was set, source 76
asserts, the moment is kept as a fall, and every open bag of a stream gets its WARMUP flag. (spec/06_edge_postmarks.md,
spec/09_acquisition_and_triggers.md § Time in the stream, spec/19_fault_collection.md) -/
def Obligations.EpochPairsAndWarmup : Prop :=
  (∀ (n : Fin 32) (s : State),
    let x := s.site n.val
    let runs := x.st = .run ∨ x.st = .hold ∨ (x.st = .drain ∧ ((x.epochPairs * 2 ^ 50 : Nat) : Int) < x.tClose.getD 0)
    (runs → ∃ t, exec (.epochPairDue false n) s = .next t
      ∧ (t.site n.val) = { x with marks := x.marks ++ epochPair false n.val (ptuTuAt s.ptu (x.epoch + x.epochPairs * 2 ^ 50)),
                                  epochPairs := x.epochPairs + 1 }
      ∧ (∀ j, j ≠ n.val → t.site j = s.site j)
      ∧ t = { s with now := max s.now (x.epoch + x.epochPairs * 2 ^ 50), sites := t.sites })
    ∧ (¬ runs → ∃ t, exec (.epochPairDue false n) s = .next t ∧ t = s))
  ∧ (∀ (n : Fin 32) (s : State),
    let x := s.stream n.val
    (isTaking x = true → ∃ t, exec (.epochPairDue true n) s = .next t ∧ (t.stream n.val).pairs = x.pairs + 1
      ∧ t.now = max s.now (x.epoch + x.pairs * 2 ^ 50)
      ∧ ∀ b, s.toCsp n.val = false → x.cur = some b → b.recs.length < 502 →
          (t.stream n.val).cur = some { b with recs := b.recs ++ epochPair true 0 (ptuTuAt s.ptu (x.epoch + x.pairs * 2 ^ 50)) }
          ∧ t = { s with now := t.now, acq := t.acq })
    ∧ (isTaking x = false → ∃ t, exec (.epochPairDue true n) s = .next t ∧ t = s))
  ∧ ∀ s : State, s.role ≠ 2 →
    let high := { s with boot := { s.boot with ocxo := true }, ptu := { s.ptu with warmTicks := min 4 (s.ptu.warmTicks + 1) } }
    (3 ≤ s.ptu.warmTicks → ∃ t, exec (.tbWarm true) s = .next t
      ∧ t = (if s.ptu.tbWarm = true then high else ({ high with ptu := { high.ptu with tbWarm := true } }).event 2 1 0))
    ∧ (s.ptu.warmTicks < 3 → s.ptu.tbWarm = false → ∃ t, exec (.tbWarm true) s = .next t ∧ t = high)
    ∧ ∃ t, exec (.tbWarm false) s = .next t ∧ t.ptu.tbWarm = false ∧ t.ptu.warmTicks = 0 ∧ t.boot.ocxo = false
        ∧ (s.ptu.tbWarm = true → (t.src 76).sticky = true ∧ t.ptu.falls = s.now :: s.ptu.falls
            ∧ ∀ i b, (s.stream i).cur = some b → (t.stream i).cur = some { b with warmup := true })

/-- An accepted STREAM_OPEN of a closed stream that R192 does not forbid, on a ring set with a stream ring, opens it for that ring
set with its epoch now and postbag stamp 0, and its task, still in service, reaches its release point. In an office without
another task, where no line is pulsed and no flush asked for, a STREAM_MARK of an open stream, with room in the device record
queue and no loss to report there, puts MARK source 16 at now at that queue's end and completes with the time since the stream's
epoch; of a stream that is not open it counts a record as not open and completes with the NOT_OPEN bit of its result; both
complete with OK and touch nothing else but the office. STREAM_CLOSE of a stream that takes records leaves it closing with its
task and report address; of any other, in an office without another task, it completes with NOT_PERMITTED and touches the office
alone. (spec/09_acquisition_and_triggers.md § Streams and routing, spec/09_acquisition_and_triggers.md § Time in the stream,
spec/12_sorting_office.md § Flows) -/
def Obligations.StreamsOpenMarkAndClose : Prop :=
  ∀ (h : Hdr) (st : Nat) (s : State),
    (Accepts s h (.streamOpen st) → s.idsFresh → (s.stream st).isOpen = false →
      (s.addTask (taskOf s h (.streamOpen st))).streamForbidden h.rs.val st = false → (s.reg (aRs h.rs.val 0x20)).testBit 1 = true →
      ∃ t u, exec (.streamOpen h st) s = .next t ∧ (t.stream st).isOpen = true ∧ (t.stream st).rs = h.rs.val
        ∧ (t.stream st).epoch = s.now ∧ (t.stream st).stamp = 0 ∧ (t.stream st).task = some s.so.nextId
        ∧ t.task s.so.nextId = some u ∧ u.released = true ∧ u.st = .inService)
    ∧ (Accepts s h (.streamMark st false false 0) → s.so.tasks = [] → h.quiet = false →
        (((s.stream st).isOpen = true → s.acq.devDrop = 0 → qLen (s.acq.devQ.map (·.1)) < 1024 →
          ∃ t, exec (.streamMark h st false false 0) s = .next t
            ∧ Completed s t h 0 ((s.now - (s.stream st).epoch) % 2 ^ 64)
            ∧ SameButOffice { s with acq := { s.acq with devQ := s.acq.devQ ++ [(markRecord 16 s.now (s.stream st).epoch, st)] } } t)
        ∧ ((s.stream st).isOpen = false →
          ∃ t, exec (.streamMark h st false false 0) s = .next t ∧ Completed s t h 0 (2 ^ 64)
            ∧ SameButOffice (s.modStream st (fun x => { x with notOpen := x.notOpen + 1 })) t)))
    ∧ ∀ addr, Accepts s h (.streamClose st addr) →
        (isTaking (s.stream st) = true →
          ∃ t, exec (.streamClose h st addr) s = .next t ∧ (t.stream st).closing = some (some s.so.nextId, addr))
        ∧ (isTaking (s.stream st) = false → s.so.tasks = [] → h.quiet = false →
          ∃ t, exec (.streamClose h st addr) s = .next t ∧ Completed s t h 4 0 ∧ SameButOffice s t)

/-- RECORD_MERGE takes, for its stream, from the next queue in the stream's round after the one it served last whose head is
routed to that stream, and notes that queue as served; a command that names another queue changes nothing. Where that is the
device record queue, its head is no GAP and asks for no flush, and the stream takes records, is no CSP input and has a bag of
fewer than 503 records, the head goes to the end of that bag and nothing else changes. BAG_FLUSH_TIMEOUT of a stream with a bag of
records, no summary bag and no loss to report, where the buffer has room, no bag spills and no old spill ring drains, closes the
bag into the buffer with its records, EARLY exactly where it holds fewer than 504, not FINAL, at FLUSH after its opening.
(spec/09_acquisition_and_triggers.md § The merger and the record queues, spec/09_acquisition_and_triggers.md § Postbags) -/
def Obligations.RecordsMergeIntoPostbags : Prop :=
  (∀ (st : Fin 16) (q : Fin 291) (s : State), s.nextQueue st.val ≠ some q.val → ∃ t, exec (.recordMerge st q) s = .next t ∧ t = s)
  ∧ (∀ (st : Fin 16) (q : Fin 291) (s : State), s.nextQueue st.val = some q.val →
    let served := { s with acq := { s.acq with served := tput (terase s.acq.served st.val) st.val q.val } }
    ∃ t, exec (.recordMerge st q) s = .next t ∧ t = served.mergeQueue q.val ∧ s.headStream q.val = some st.val
      ∧ ∀ (e : BitVec 64 × Nat) (rest : List (BitVec 64 × Nat)) (b : Bag), q.val = 256 → s.acq.devQ = e :: rest → e.2 = st.val →
          s.toCsp st.val = false → isTaking (s.stream st.val) = true → (s.stream st.val).cur = some b → b.recs.length < 503 →
          recKind e.1 ≠ 5 →
          t.acq.devQ = rest ∧ (t.stream st.val).cur = some { b with recs := b.recs ++ [e.1] }
            ∧ t = { s with acq := { served.acq with devQ := rest, streams := t.acq.streams } })
  ∧ ∀ (st : Fin 16) (b : Bag) (s : State), (s.stream st.val).cur = some b → (s.stream st.val).curSum = none →
      (s.stream st.val).unreported = [] → b.recs ≠ [] → b.recs.length ≤ 504 → s.acq.buffer.length < 256 → s.spills = false →
      s.acq.spillOld = 0 →
      ∃ t g, exec (.bagFlushTimeout st) s = .next t ∧ t.acq.buffer = s.acq.buffer ++ [g] ∧ g.recs = b.recs ∧ g.final = false
        ∧ g.stream = b.stream ∧ g.rs = b.rs ∧ g.early = decide (b.recs.length < 504) ∧ (t.stream st.val).cur = none
        ∧ t = { s with now := max s.now (b.opened + s.flushTime), acq := t.acq }

/-- Where no bag waits to close and no stream is closing, BAG_WRITE of a first bag, with a page-aligned descriptor at the consumer
index of its ring set's stream ring, writes the bag's bytes there, moves the consumer index and the stream's stamp on by one,
updates the write-back area and drops the bag; no other byte of host memory changes. Where its ring set is ENABLED and its stream
ring is empty, the bag waits; where it is not ENABLED and the ring is empty, the bag is dropped and counted in the ring set. (A
FINAL bag is left to the statement of its stream's close.) SPILL_READ without errors of a first bag whose 64 lines are not
poisoned, while the buffer holds 192 bags or fewer and no stream waits for room, takes it out of the spill ring and puts it, its
body as those lines hold it, at the buffer's end. (spec/09_acquisition_and_triggers.md § Postbags,
spec/11_host_interface_and_rings.md § Stream rings) -/
def Obligations.PostbagsReachTheHost : Prop :=
  ∀ s : State, (∀ i, i < 16 → isFull (s.stream i) = false ∧ (s.stream i).closing = none) →
    (∀ (b : Bag) (rest : List Bag), s.acq.buffer = b :: rest → b.final = false →
      let a := readLE s.host (s.entryAddr b.rs 2 16 (s.rs b.rs).strCons.toNat) 8
      let w := s.reg64 (aRs b.rs 0x18)
      let bytes := s.bagBytes b (s.stream b.stream).stamp.toNat
      ((s.rs b.rs).strProd ≠ (s.rs b.rs).strCons → a % 4096 = 0 →
        ∃ t v, exec .bagWrite s = .next t ∧ t.host = writeLE (writeBytes s.host a bytes) w 20 v
          ∧ (∀ c, (c < a ∨ a + bytes.length ≤ c) → (c < w ∨ w + 20 ≤ c) → readByte t.host c = readByte s.host c)
          ∧ (t.rs b.rs).strCons = (s.rs b.rs).strCons + 1 ∧ (t.stream b.stream).stamp = (s.stream b.stream).stamp + 1
          ∧ t.acq.buffer = rest ∧ t = { s with host := t.host, hif := t.hif, out := t.out, acq := t.acq })
      ∧ ((s.rs b.rs).st = .enabled → (s.rs b.rs).strProd = (s.rs b.rs).strCons → ∃ t, exec .bagWrite s = .next t ∧ t = s)
      ∧ ((s.rs b.rs).st ≠ .enabled → (s.rs b.rs).strProd = (s.rs b.rs).strCons →
        ∃ t, exec .bagWrite s = .next t ∧ t = ({ s with acq := { s.acq with buffer := rest } }).rcAdd (aRs b.rs 0x2C) 1))
    ∧ ∀ (line a : Nat) (b : Bag) (rest : List Bag), s.acq.spill = b :: rest → s.acq.buffer.length ≤ 192 → b.line = some a →
        (∀ i, i < 64 → s.isPoisoned (a + i) = false) →
        ∃ t, exec (.spillRead line []) s = .next t
          ∧ t = { s with mem := { s.mem with banks := t.mem.banks },
                         acq := { s.acq with spill := rest, spillOld := s.acq.spillOld - 1,
                                             buffer := s.acq.buffer ++ [bagOf b ((List.range 64).map (fun i => s.lineData (a + i)))] } }

/-- An edge within 1 ns (8,000 TU) of the last stamped edge of its input is not stamped: it counts in TRG_DEAD and asserts source
80. Any other becomes the input's last stamped edge; it sets the input's request latch, by sense, in every site that leads a walk
under way since before it, gives a prepared RUN that waits for this input and sense its epoch START_DELAY later, and, asserting,
causes a pulse on every line whose route follows the input, DELAY later and WIDTH long. Either sets the input's level.
TRIGGER_PULSE_START of a line that is not asserted begins its earliest waiting pulse on the ball; on an asserted line a pulse that
starts no later than the line's end moves that end to the later of the two, counts in TRG_OUT_MERGE and asserts source 81 exactly
where a pulse of the same route is under way, and leaves the ball. TRIGGER_PULSE_END ends the line where no waiting pulse begins
at or before its end. (spec/09_acquisition_and_triggers.md § Trigger inputs, spec/09_acquisition_and_triggers.md § Trigger
outputs, spec/04_sequencer.md § Jumps and the decision point, spec/04_sequencer.md § Starting a run) -/
def Obligations.TriggerInputsAndPulses : Prop :=
  (∀ (i : Fin 16) (asserting : Bool) (u : Nat) (s : State),
    (∀ l, tget none s.trg.lastEdge i.val = some l → u < l + 8000 →
      ∃ t, exec (.triggerEdge i asserting u) s = .next t ∧ tget none t.trg.lastEdge i.val = some l
        ∧ tget false t.trg.level i.val = asserting
        ∧ t.rcOf (aTrgDead i.val) = satAdd 32 (s.rcOf (aTrgDead i.val)) 1 ∧ (t.src 80).sticky = true ∧ t.sites = s.sites)
    ∧ ((∀ l, tget none s.trg.lastEdge i.val = some l → l + 8000 ≤ u) →
      ∃ t, exec (.triggerEdge i asserting u) s = .next t ∧ tget none t.trg.lastEdge i.val = some u
        ∧ tget false t.trg.level i.val = asserting ∧ t = { s with now := max s.now u, trg := t.trg, sites := t.sites, acq := t.acq }
        ∧ (∀ w, w < 32 → s.leadSite w = w → s.walkers w ≠ [] → (s.site w).epoch ≤ u →
            (t.site w).latches = setLatch (s.site w).latches (inputLatch i.val asserting) ((u : Int) - (s.site w).epoch))
        ∧ (∀ w r, w < 32 → (s.site w).req = some r → (s.site w).st = .armed → (s.site w).prepared = true → r.start = 1 →
            r.input = i.val → r.falling = !asserting → (s.site w).epochAt = none → (s.site w).prepAt ≤ u → s.startBlocked w = false →
            (t.site w).epochAt = some (u + cvStartDelay s.cv r.site))
        ∧ (∀ l, l < 16 → asserting = true → routeMode (s.route l) = 3 → routeArg (s.route l) = i.val →
            tget [] t.trg.waiting l = tget [] s.trg.waiting l ++
              [⟨u + routeDelay (s.route l), u + routeDelay (s.route l) + routeWidth (s.route l), s.route l⟩])))
  ∧ ∀ (line : Fin 16) (s : State),
    (∀ p, firstPulse (tget [] s.trg.waiting line.val) = some p →
      let going := (tget [] s.trg.begun line.val).filter (fun g => decide (p.start < g.stop))
      let trg := { s.trg with waiting := tset [] s.trg.waiting line.val ((tget [] s.trg.waiting line.val).erase p),
                              begun := tset [] s.trg.begun line.val (p :: going) }
      (tget none s.trg.active line.val = none →
        ∃ t, exec (.triggerPulseStart line) s = .next t
          ∧ t = { s with now := max s.now p.start, trg := { trg with active := tset none trg.active line.val (some p) },
                         out := .line line.val true p.start :: s.out })
      ∧ ∀ q, tget none s.trg.active line.val = some q → p.start ≤ q.stop →
        let longer := { trg with active := tset none trg.active line.val (some { q with stop := max q.stop p.stop }) }
        ((∀ g ∈ going, g.route ≠ p.route) → ∃ t, exec (.triggerPulseStart line) s = .next t
          ∧ t = { s with now := max s.now p.start, trg := longer })
        ∧ ((∃ g ∈ going, g.route = p.route) → ∃ t, exec (.triggerPulseStart line) s = .next t ∧ t.trg = longer
          ∧ t.rcOf (aTrgMerge line.val) = satAdd 32 (s.rcOf (aTrgMerge line.val)) 1 ∧ (t.src 81).sticky = true))
    ∧ ∀ p, tget none s.trg.active line.val = some p → (∀ q ∈ tget [] s.trg.waiting line.val, p.stop < q.start) →
        ∃ t, exec (.triggerPulseEnd line) s = .next t
          ∧ t = { s with now := max s.now p.stop, out := .line line.val false p.stop :: s.out,
                         trg := { s.trg with active := tset none s.trg.active line.val none, begun := tset [] s.trg.begun line.val [] } }

/-- While a program may issue from a word in C memory, each operation acts on the registers and memories as they stand, its word
then retires (the writes that the word's joined moves hold are made, and the program counter goes on), and nothing else changes
but that a free value is drawn: MAC adds or subtracts the product of each 32-bit lane to its accumulator lane, with saturation.
RND drops bits of accumulator or .D lanes, half to even, and saturates to 32 bits. ALU add, subtract and shift left write the
exact lane result where it lies in the format; minimum, maximum, and, or, xor, select and the rounding shift right (more than one
place beyond the width acts as that) write theirs; compares write the lanes' bits of Q. KIND tests [63:61] into Q, FLD extracts a
field, PACK moves the lanes under Q to the bottom and counts them, PREV shifts the lanes by one with the carry register, and
writes the carry register's last lane. HIST adds one per lane under Q in its bin of X memory, and no other byte changes. ACS, with
the setting in force or one it sets, forms the new metrics less the smallest and the newest decisions; TRACE writes the decoded
pairs to X memory. (spec/10_capture_signal_processor.md) -/
def Obligations.CspLaneOperations : Prop :=
  ∀ s : State, canIssue s.csp = true → cspFits .c s.csp.pc 8 8 = true →
    (∀ (dst : Fin 8) (a b : Fin 32) (subtract q31 : Bool), ∃ t u, exec (.cspMac dst a b subtract q31) s = .next t
        ∧ t = { s.drawn with csp := retire u }
      ∧ (∀ i < 16, (aReg u dst.val).getD i 0 =
          (let p := (macProduct q31 (toSigned 32 (lane false (vReg s.csp a.val) i)) (toSigned 32 (lane false (vReg s.csp b.val) i))).1
           (satAcc ((aReg s.csp dst.val).getD i 0 + (if subtract then -p else p))).1))
      ∧ (∀ j, j ≠ dst.val → aReg u j = aReg s.csp j)
      ∧ u = { s.csp with a := u.a, flags := u.flags })
    ∧ (∀ (dst : Fin 32) (wide : Bool) (src : Fin 32) (k : Fin 64), ∃ t u, exec (.cspRnd dst wide src k) s = .next t
        ∧ t = { s.drawn with csp := retire u }
      ∧ (∀ i < (if wide then 8 else 16), toSigned 32 (lane false (vReg u dst.val) i) =
          (satTo 32 (roundDrop (if wide then toSigned 64 (lane true (vReg s.csp src.val) i)
            else (aReg s.csp (src.val % 8)).getD i 0) k.val)).1)
      ∧ (∀ j, j ≠ dst.val → vReg u j = vReg s.csp j)
      ∧ u = { s.csp with v := u.v, flags := u.flags })
    ∧ (∀ (op : CspAluOp) (wide : Bool) (dst a b : Fin 32) (q : Fin 4),
      let w := laneBits wide
      let x := fun i => lane wide (vReg s.csp a.val) i
      let y := fun i => lane wide (vReg s.csp b.val) i
      (op = .cmpLt ∨ op = .cmpEq → ∃ t u, exec (.cspAlu op wide dst a b q) s = .next t
        ∧ t = { s.drawn with csp := retire u }
        ∧ (∀ i < lanesOf wide, qBit u q.val i = true ↔
            (if op = .cmpEq then x i = y i else toSigned w (x i) < toSigned w (y i)))
        ∧ (∀ j, j ≠ q.val → tget 0 u.q j = tget 0 s.csp.q j)
        ∧ u = { s.csp with q := u.q })
      ∧ (op ≠ .cmpLt → op ≠ .cmpEq → ∃ t u, exec (.cspAlu op wide dst a b q) s = .next t
        ∧ t = { s.drawn with csp := retire u }
        ∧ (∀ i < lanesOf wide,
            let z := lane wide (vReg u dst.val) i
            (op = .add → inRange w (toSigned w (x i) + toSigned w (y i)) = true → toSigned w z = toSigned w (x i) + toSigned w (y i))
            ∧ (op = .sub → inRange w (toSigned w (x i) - toSigned w (y i)) = true → toSigned w z = toSigned w (x i) - toSigned w (y i))
            ∧ (op = .min → toSigned w z = min (toSigned w (x i)) (toSigned w (y i)))
            ∧ (op = .max → toSigned w z = max (toSigned w (x i)) (toSigned w (y i)))
            ∧ (op = .and → z = x i &&& y i) ∧ (op = .or → z = x i ||| y i) ∧ (op = .xor → z = x i ^^^ y i)
            ∧ (op = .shl → y i < w → inRange w (toSigned w (x i) * (2 ^ y i : Nat)) = true →
                toSigned w z = toSigned w (x i) * (2 ^ y i : Nat))
            ∧ (op = .shr → toSigned w z = roundDrop (toSigned w (x i)) (min (y i) (w + 1)))
            ∧ (op = .select → z = if qBit s.csp q.val i then x i else y i))
        ∧ (∀ j, j ≠ dst.val → vReg u j = vReg s.csp j)
        ∧ u = { s.csp with v := u.v }))
    ∧ (∀ (q : Fin 4) (src : Fin 32) (kind : Fin 8), ∃ t u, exec (.cspKind q src kind) s = .next t
        ∧ t = { s.drawn with csp := retire u }
      ∧ (∀ i < 8, qBit u q.val i = true ↔ fld (lane true (vReg s.csp src.val) i) 61 3 = kind.val)
      ∧ (∀ j, j ≠ q.val → tget 0 u.q j = tget 0 s.csp.q j)
      ∧ u = { s.csp with q := u.q })
    ∧ (∀ (dst src : Fin 32) (lo : Fin 64) (width : Nat) (wide : Bool), 0 < width → lo.val + width ≤ laneBits wide →
      ∃ t u, exec (.cspFld dst src lo width wide) s = .next t
        ∧ t = { s.drawn with csp := retire u }
        ∧ (∀ i < lanesOf wide, lane wide (vReg u dst.val) i = fld (lane wide (vReg s.csp src.val) i) lo.val width)
        ∧ (∀ j, j ≠ dst.val → vReg u j = vReg s.csp j)
        ∧ u = { s.csp with v := u.v })
    ∧ (∀ (dst src : Fin 32) (q : Fin 4) (count : Fin 16) (wide : Bool), ∃ t u, exec (.cspPack dst src q count wide) s = .next t
        ∧ t = { s.drawn with csp := retire u }
      ∧ (let ls := ((List.range (lanesOf wide)).filter (qBit s.csp q.val)).map (lane wide (vReg s.csp src.val))
         sReg u count.val = ls.length ∧ ∀ j < ls.length, lane wide (vReg u dst.val) j = ls.getD j 0)
      ∧ (∀ j, j ≠ dst.val → vReg u j = vReg s.csp j) ∧ (∀ j, j ≠ count.val → sReg u j = sReg s.csp j)
      ∧ u = { s.csp with v := u.v, s := u.s })
    ∧ (∀ (dst src carry : Fin 32) (count : Fin 16) (wide : Bool),
      ∃ t u, exec (.cspPrev dst src carry count wide) s = .next t
        ∧ t = { s.drawn with csp := retire u }
        ∧ (∀ i < lanesOf wide, lane wide (vReg u dst.val) i =
            if i = 0 then lane wide (vReg s.csp carry.val) (lanesOf wide - 1) else lane wide (vReg s.csp src.val) (i - 1))
        ∧ (dst ≠ carry → lane wide (vReg u carry.val) (lanesOf wide - 1) =
              (if sReg s.csp count.val = 0 then lane wide (vReg s.csp carry.val) (lanesOf wide - 1)
               else lane wide (vReg s.csp src.val) (min (lanesOf wide) (sReg s.csp count.val) - 1))
            ∧ ∀ i, i + 1 < lanesOf wide → lane wide (vReg u carry.val) i = lane wide (vReg s.csp carry.val) i)
        ∧ (∀ j, j ≠ dst.val → j ≠ carry.val → vReg u j = vReg s.csp j)
        ∧ u = { s.csp with v := u.v })
    ∧ (∀ (src : Fin 32) (q : Fin 4) (base : Nat) (bias : Int) (bins : Nat) (wide : Bool), 0 < bins →
      cspFits .x base (4 * bins) 4 = true →
      let ls := (List.range (lanesOf wide)).filter (qBit s.csp q.val)
      let hits := fun b => ls.countP (fun i => histBin (toSigned (laneBits wide) (lane wide (vReg s.csp src.val) i)) bias bins == b)
      (∀ b < bins, cspRead s.csp .x (base + 4 * b) 4 + hits b < 2 ^ 32) →
      ∃ t u, exec (.cspHist src q base bias bins wide .clean) s = .next t
        ∧ t = { s.drawn with csp := retire u }
        ∧ (∀ b < bins, cspRead u .x (base + 4 * b) 4 = cspRead s.csp .x (base + 4 * b) 4 + hits b)
        ∧ (∀ a, (a < base ∨ base + 4 * bins ≤ a) → cspByte u .x a = cspByte s.csp .x a)
        ∧ u = { s.csp with x := u.x })
    ∧ (∀ setting m,
      let c := trellisSet s.csp setting
      let sum := fun st j => satAdd 32 (tget 0 c.metrics (trellisPred m st j)) (cspRead c .y (c.bmBase + 4 * (4 * st + j)) 4)
      trellisM c.states = some m → 16 ≤ c.depth → c.depth ≤ 4096 → cspFits .y c.bmBase (16 * c.states) 4 = true →
      cspFits .y c.ringBase (c.depth * (c.states / 4)) 1 = true →
      ∃ t u low, exec (.cspAcs setting .clean) s = .next t ∧ t = { s.drawn with csp := retire u }
        ∧ (∀ st < c.states, tget 0 u.metrics st + low = (trellisBest (sum st)).1
            ∧ trellisDecision u st 0 = (trellisBest (sum st)).2 ∧ ∀ j < 4, (trellisBest (sum st)).1 ≤ sum st j)
        ∧ (∃ st < c.states, tget 0 u.metrics st = 0)
        ∧ u.pos = (c.pos + 1) % c.depth ∧ u.flags.getLsbD 0 = c.flags.getLsbD 0
        ∧ u = { c with metrics := u.metrics, y := u.y, pos := u.pos, flags := u.flags })
    ∧ (∀ (m length dst : Nat) (st : Fin 64), trellisM s.csp.states = some m → st.val < s.csp.states → length ≤ s.csp.depth →
      cspFits .x dst (ceilDiv (2 * length) 8) 1 = true →
      ∃ t u, exec (.cspTrace (some st) length dst .clean) s = .next t
        ∧ t = { s.drawn with csp := retire u }
        ∧ (let pairs := trellisWalk s.csp m length st.val 0 []
           pairs.length = length
             ∧ ∀ i < length, fld (cspRead u .x (dst + 2 * i / 8) 1) (2 * i % 8) 2
                 = 2 * (pairs.getD i 0 % 2) + pairs.getD i 0 / 2)
        ∧ (∀ a, (a < dst ∨ dst + ceilDiv (2 * length) 8 ≤ a) → cspByte u .x a = cspByte s.csp .x a)
        ∧ u = { s.csp with x := u.x })

/-- CSP_START of a CSP that is LOADED, HALTED or FAULTED runs it from the entry's address with the arguments in S0 to S7; else it
completes with NOT_PERMITTED. Issued from a word in C memory: IN takes up to eight records with their number and tags. OUT pushes
lanes as records of kind 7 where they find room; a full queue stalls it, and OUT_RESUME goes on; of a CSP_STREAM that is not open
what finds no room is counted. WAIT holds until enough records or the cycles' end. HALT ends the program with its code and
completes its task with Table 10.6's result. LOOP repeats its body, or with a count of 0 passes it; a taken branch, a call and a
return go where they say. A MOVE makes its writes as its word retires, with those of the word's joined moves; a joined one only
notes them; a load or store through a pointer takes 64 or 4 bytes and updates the pointer; a corrected word counts in CSP_CORR
with source 40. A field out of range is exception 1; a word outside C memory, a branch or call beyond it and a misaligned or
outside access exception 2; a fifth loop, a ninth call and a return without a call exception 3; an uncorrectable word exception 4:
the CSP is FAULTED and source 39 asserts. An activation that waits comes into force once the CSP is not RUNNING: the memories read
the image's bytes. (spec/10_capture_signal_processor.md) -/
def Obligations.CspControlStreamAndMoves : Prop :=
  ∀ s : State,
    let raises : Instr → Nat → Prop := fun c n => ∃ t, exec c s = .next t ∧ t.csp.st = .faulted ∧ t.csp.exception = n
      ∧ t.csp.task = none ∧ (t.src 39).sticky = true
    (∀ (h : Hdr) (entry : Nat) (args : List Nat), Accepts s h (.cspStart entry args) →
      (s.csp.st = .loaded ∨ s.csp.st = .halted ∨ s.csp.st = .faulted →
        ∃ t, exec (.cspStart h entry args) s = .next t ∧ t.csp.st = .running ∧ t.csp.task = some s.so.nextId
          ∧ t.csp.pc = cspEntryAddr s.csp entry ∧ (∀ i < 8, sReg t.csp i = args.getD i 0 % 2 ^ 32)
          ∧ t.csp.calls = [] ∧ t.csp.loops = [] ∧ t.csp.x = s.csp.x ∧ t.csp.y = s.csp.y ∧ t.csp.c = s.csp.c)
      ∧ (s.csp.st = .off ∨ s.csp.st = .running → s.so.tasks = [] → h.quiet = false →
        ∃ t, exec (.cspStart h entry args) s = .next t ∧ Completed s t h 4 0 ∧ SameButOffice s t))
    ∧ (canIssue s.csp = true → cspFits .c s.csp.pc 8 8 = false →
      (∀ move found, raises (.cspMove move found) 2) ∧ (∀ code, raises (.cspHalt code) 2)
        ∧ ∀ q v k, raises (.cspKind q v k) 2)
    ∧ (canIssue s.csp = true → cspFits .c s.csp.pc 8 8 = true →
      (∀ (dst : Fin 32) (count tags : Fin 16),
        ∃ t u, exec (.cspIn dst count tags) s = .next t ∧ t = { s.drawn with csp := retire u }
          ∧ (count ≠ tags → sReg u count.val = min 8 s.csp.inQ.length)
          ∧ (∀ i < min 8 s.csp.inQ.length, lane true (vReg u dst.val) i = (s.csp.inQ.getD i (0, 0)).1.toNat
              ∧ fld (sReg u tags.val) (4 * i) 4 = (s.csp.inQ.getD i (0, 0)).2 % 16)
          ∧ u = { s.csp with inQ := s.csp.inQ.drop 8, v := u.v, s := u.s,
                             popped := satAdd 32 s.csp.popped (min 8 s.csp.inQ.length) })
      ∧ (∀ (src : Fin 32) (lanes : Nat), 1 ≤ lanes → lanes ≤ 8 →
        let rs := (List.range lanes).map (fun i => cspRecord (lane true (vReg s.csp src.val) i))
        let room := 1024 - s.csp.outQ.length
        ((s.stream s.cspStream).isOpen = true → s.csp.outQ.length + lanes ≤ 1024 → ∃ t, exec (.cspOut src lanes) s = .next t
          ∧ t = { s with csp := retire { s.csp with outQ := s.csp.outQ ++ rs, pushed := satAdd 32 s.csp.pushed lanes } })
        ∧ ((s.stream s.cspStream).isOpen = true → 1024 < s.csp.outQ.length + lanes → ∃ t, exec (.cspOut src lanes) s = .next t
          ∧ t = { s with csp := { s.csp with outQ := s.csp.outQ ++ rs.take room, stalled := some (rs.drop room),
                                             pushed := satAdd 32 s.csp.pushed (rs.take room).length } })
        ∧ ((s.stream s.cspStream).isOpen = false → ∃ t, exec (.cspOut src lanes) s = .next t
          ∧ t.csp = retire { s.csp with outQ := s.csp.outQ ++ rs.take room, pushed := satAdd 32 s.csp.pushed lanes }
          ∧ (t.stream s.cspStream).notOpen = (s.stream s.cspStream).notOpen + (rs.drop room).length
          ∧ t = { s with csp := t.csp, acq := t.acq }))
      ∧ (∀ records cycles, 1 ≤ records → records ≤ 4096 → ∃ t, exec (.cspWait records cycles) s = .next t
          ∧ t = { s with csp := { s.csp with waiting := some (records, s.now + cycles * tuPerNs) } })
      ∧ (∀ code : BitVec 16,
        let done := freeFlags (retire s.csp) (s.free 26)
        (s.csp.task = none → ∃ t, exec (.cspHalt code) s = .next t ∧ t = { s.drawn with csp := { done with st := .halted } })
        ∧ ∀ u, s.csp.task = some u.id → s.so.tasks = [u] → u.hdr.quiet = false → u.courier = false →
          ∃ t, exec (.cspHalt code) s = .next t ∧ t.csp = { done with st := .halted, task := none }
            ∧ Completed s t u.hdr 0 (cspResult done code.toNat))
      ∧ (∀ count length, 1 ≤ length → length ≤ 256 → 1 ≤ count → s.csp.loops.length < 4 →
        let l : CspLoopRec := ⟨s.csp.pc + 8, length, if count = 0xFFFFFFFF then none else some count,
          decide (((s.csp.loops.filter (·.cached)).map (·.length)).sum + length ≤ 256), false⟩
        ∃ t, exec (.cspLoop count length) s = .next t ∧ t = { s.drawn with csp := retire { s.csp with loops := l :: s.csp.loops } }
          ∧ t.csp.pc = s.csp.pc + 8 ∧ t.csp.loops = l :: s.csp.loops)
      ∧ (∀ length, 1 ≤ length → length ≤ 256 → s.csp.loops = [] → ∃ t, exec (.cspLoop 0 length) s = .next t
          ∧ t.csp.pc = s.csp.pc + 8 + 8 * length ∧ t.csp.loops = [])
      ∧ (∀ target, ∃ t, exec (.cspBranch (.branch target false)) s = .next t ∧ t = { s with csp := retire s.csp })
      ∧ (∀ target, cspFits .c target 8 8 = true →
        (∃ t, exec (.cspBranch (.branch target true)) s = .next t ∧ t = { s with csp := { landHeld s.csp with
            pc := target, loops := s.csp.loops.dropWhile (fun l => inBody l s.csp.pc && !inBody l target) } })
        ∧ (s.csp.calls.length < 8 → ∃ t, exec (.cspBranch (.call target)) s = .next t
          ∧ t = { s with csp := { landHeld s.csp with pc := target, calls := (s.csp.pc + 8) :: s.csp.calls } }))
      ∧ (∀ r rest, s.csp.calls = r :: rest → ∃ t, exec (.cspBranch .ret) s = .next t
          ∧ t = { s with csp := { landHeld s.csp with pc := (loopStep s.csp.loops r).2, calls := rest,
                                                      loops := (loopStep s.csp.loops r).1 } })
      ∧ ((∀ v, raises (.cspOut v 0) 1) ∧ (∀ v n, 8 < n → raises (.cspOut v n) 1) ∧ (∀ k, raises (.cspWait 0 k) 1)
        ∧ (∀ n, raises (.cspLoop n 0) 1) ∧ (∀ d v lo wide, raises (.cspFld d v lo 0 wide) 1)
        ∧ (∀ v q b bias wide, raises (.cspHist v q b bias 0 wide .clean) 1)
        ∧ (∀ target, cspFits .c target 8 8 = false →
            raises (.cspBranch (.branch target true)) 2 ∧ raises (.cspBranch (.call target)) 2)
        ∧ (∀ m p d joined, cspFits m (tget 0 s.csp.p p.val).toNat 64 64 = false → raises (.cspMove ⟨.loadV m p d, joined⟩ .clean) 2)
        ∧ (s.csp.calls = [] → raises (.cspBranch .ret) 3)
        ∧ (∀ target, cspFits .c target 8 8 = true → 8 ≤ s.csp.calls.length → raises (.cspBranch (.call target)) 3)
        ∧ (∀ n length, 1 ≤ n → 1 ≤ length → length ≤ 256 → 4 ≤ s.csp.loops.length → raises (.cspLoop n length) 3)
        ∧ ∀ op joined, moveWords s.csp op ≠ 0 → raises (.cspMove ⟨op, joined⟩ .uncorrectable) 4)
      ∧ (∀ op ws, moveWrites s.csp op = .ok ws →
        (∃ t, exec (.cspMove ⟨op, false⟩ .clean) s = .next t ∧ t = { s.drawn with csp := retire (ws.foldl cspLand s.csp) })
        ∧ (∃ t, exec (.cspMove ⟨op, true⟩ .clean) s = .next t ∧ t = { s.drawn with csp := { s.csp with held := s.csp.held ++ ws } })
        ∧ (moveWords s.csp op ≠ 0 → ∃ t, exec (.cspMove ⟨op, true⟩ (.corrected 1)) s = .next t
          ∧ t = { ((s.rcAdd aCspCorr 1).fault 40 0).drawn with csp := { s.csp with held := s.csp.held ++ ws } }))
      ∧ (∀ (m : CspMem) (p : Fin 8), cspFits m (tget 0 s.csp.p p.val).toNat 64 64 = true →
        let a := (tget 0 s.csp.p p.val).toNat
        let next := BitVec.ofNat 32 (pointerNext a (tget 0 s.csp.m p.val).toNat (tget 0 s.csp.l p.val).toNat)
        ∀ r : Fin 32,
        (∃ t u, exec (.cspMove ⟨.loadV m p r, false⟩ .clean) s = .next t ∧ t = { s.drawn with csp := retire u }
          ∧ vReg u r.val = cspRead s.csp m a 64 ∧ tget 0 u.p p.val = next
          ∧ (∀ j, j ≠ r.val → vReg u j = vReg s.csp j) ∧ (∀ j, j ≠ p.val → tget 0 u.p j = tget 0 s.csp.p j)
          ∧ u = { s.csp with v := u.v, p := u.p })
        ∧ (∃ t u, exec (.cspMove ⟨.storeV m p r, false⟩ .clean) s = .next t ∧ t = { s.drawn with csp := retire u }
          ∧ cspRead u m a 64 = vReg s.csp r.val ∧ tget 0 u.p p.val = next
          ∧ (∀ m' b, (m' ≠ m ∨ b < a ∨ a + 64 ≤ b) → cspByte u m' b = cspByte s.csp m' b)
          ∧ (∀ j, j ≠ p.val → tget 0 u.p j = tget 0 s.csp.p j) ∧ u = { s.csp with x := u.x, y := u.y, c := u.c, p := u.p }))
      ∧ (∀ (m : CspMem) (p : Fin 8) (r : Fin 16), cspFits m (tget 0 s.csp.p p.val).toNat 4 4 = true →
        let a := (tget 0 s.csp.p p.val).toNat
        (∃ t u, exec (.cspMove ⟨.loadS m p r, false⟩ .clean) s = .next t ∧ t = { s.drawn with csp := retire u }
          ∧ sReg u r.val = cspRead s.csp m a 4 ∧ (∀ j, j ≠ r.val → sReg u j = sReg s.csp j) ∧ u = { s.csp with s := u.s, p := u.p })
        ∧ (∃ t u, exec (.cspMove ⟨.storeS m p r, false⟩ .clean) s = .next t ∧ t = { s.drawn with csp := retire u }
          ∧ cspRead u m a 4 = sReg s.csp r.val
          ∧ (∀ m' b, (m' ≠ m ∨ b < a ∨ a + 4 ≤ b) → cspByte u m' b = cspByte s.csp m' b)
          ∧ u = { s.csp with x := u.x, y := u.y, c := u.c, p := u.p })))
    ∧ (∀ rs, s.csp.stalled = some rs → s.csp.outQ.length + rs.length ≤ 1024 →
        ∃ t, exec .cspOutResume s = .next t
          ∧ t = { s with csp := retire { s.csp with stalled := none, outQ := s.csp.outQ ++ rs,
                                                    pushed := satAdd 32 s.csp.pushed rs.length }, acq := t.acq })
    ∧ (∀ n u, s.csp.waiting = some (n, u) →
        let gone := fun (r : State) => { r.drawn with csp := retire (freeFlags { s.csp with waiting := none } (s.free 26)) }
        (∃ t, exec (.cspWaitEnd true) s = .next t ∧ t = gone (s.advance u))
        ∧ (n ≤ s.csp.inQ.length → ∃ t, exec (.cspWaitEnd false) s = .next t ∧ t = gone s)
        ∧ (s.csp.inQ.length < n → ∃ t, exec (.cspWaitEnd false) s = .next t ∧ t = s))
    ∧ (∀ id im, s.csp.activatePending = some id → tget none s.boot.staged 1 = some im →
        (s.csp.st = .running → ∃ t, exec .cspActivationApply s = .next t ∧ t = s)
        ∧ (s.csp.st ≠ .running → s.so.tasks = [] → ∃ t, exec .cspActivationApply s = .next t ∧ t.csp.st = .loaded
            ∧ t.csp.meas = some im.sha ∧ t.csp.version = im.version ∧ t.csp.activatePending = none
            ∧ (∀ m a, cspByte t.csp m a = Config.imageByte im.sha (memPlace m + a))
            ∧ t = { s with csp := t.csp, boot := t.boot }))

/-- In ACTIVE the frame on its way, else that of the first virtual channel with a frame and a credit, ends with the next stamp and
a good frank (a bad one where INJECT_FRANK waits), spends a credit and stays in the replay buffer. A frame with a bad frank, or
beyond the stamp expected, is discarded; a bad one counts, and unless a NAK has gone, a lane is at fault or a drop is unanswered,
it is asked for by a NAK. The expected one is acknowledged and, where it must not wait for a task slot and none waits before it,
delivered and credited; one already delivered is acknowledged again. ACK drops acknowledged frames, CREDIT of 1 to 64 adds credits
up to the buffer; a block whose check fails does nothing. A NAK of a waiting frame, or 2 us without acknowledgement, sends every
frame of the buffer again, oldest first, and counts it; after four times, on RETRAIN and on elastic buffer overflow the port
enters RECOVERY for 2 ms at most, keeping buffer and stamps, with source 60 + p; a Branch whose upstream link it is leaves the
tree, keeps its id and enters HOLDOVER. FILLER_ON waits for the next marker. In CAPABILITY and RECOVERY an ACK acknowledges this
side's capability frame, and the peer's is noted and acknowledged; in ACTIVE the peer's leads to RECOVERY first. INJECT_FRANK
waits for the next frame. (spec/13_courier_links.md) -/
def Obligations.FramesAreSentAcknowledgedAndReplayed : Prop :=
  ∀ (p : Fin 4) (s : State),
    let x := s.port p.val
    let sends := fun (t : State) => t.out.filterMap (fun e => match e with | Emit.frameSent q g => some (q, g) | _ => none)
    let again := (x.replay.mapIdx (fun i g => (p.val, spoilFrank (x.injectFrank && i == 0) g.toNat))).reverse
    let resent : State → Nat → Prop := fun t now => sends t = again ++ sends s
      ∧ t.rcOf (aCou p.val 0x10) = satAdd 32 (s.rcOf (aCou p.val 0x10)) 1 ∧ (t.port p.val).resends = x.resends + 1
      ∧ (t.port p.val).replay = x.replay ∧ (∀ q, q ≠ p.val → t.port q = s.port q)
      ∧ t = { s with now := now, ports := t.ports, rc := t.rc, out := t.out }
    let recovers : State → Prop := fun t => (t.port p.val).st = .recovery ∧ (t.port p.val).replay = x.replay
      ∧ (t.port p.val).stamp = x.stamp ∧ (t.port p.val).expected = x.expected ∧ (t.port p.val).capSeen = false
      ∧ (t.src (60 + p.val)).sticky = true
      ∧ (s.role = 2 → p.val = s.tree.upstream → s.tree.inTree = true → t.tree.inTree = false ∧ t.tree.inEpoch = false
          ∧ t.tree.id = s.tree.id ∧ (s.ptu.st ≠ .unset → t.ptu.st = .holdover))
      ∧ (x.child = none → (s.role = 2 → p.val = s.tree.upstream → s.tree.inTree = false) →
          (∀ q, q ≠ p.val → t.port q = s.port q)
          ∧ SameButEvents { s with now := t.now, ports := t.ports, tree := t.tree } t)
    (x.st = .active →
      (∀ vc f rest, currentVc x = some vc → tget [] x.txq vc = f :: rest → x.replay.length < 64 → tget 0 x.credits vc ≠ 0 →
        let w := wireFrame x f.toNat
        ∃ t, exec (.frameSend p) s = .next t ∧ t = { s with ports := t.ports, out := t.out }
          ∧ t.out.head? = some (.frameSent p.val (spoilFrank x.injectFrank w))
          ∧ tget [] (t.port p.val).txq vc = rest ∧ tget 0 (t.port p.val).credits vc + 1 = tget 0 x.credits vc
          ∧ (∀ v, v ≠ vc → tget [] (t.port p.val).txq v = tget [] x.txq v ∧ tget 0 (t.port p.val).credits v = tget 0 x.credits v)
          ∧ (t.port p.val).stamp = x.stamp + 1 ∧ (t.port p.val).replay = x.replay ++ [BitVec.ofNat 2048 w]
          ∧ (t.port p.val).injectFrank = false ∧ frStamp w = x.stamp.toNat ∧ frankGood w = true
          ∧ frankGood (spoilFrank x.injectFrank w) = !x.injectFrank
          ∧ ∀ q, q ≠ p.val → t.port q = s.port q)
      ∧ (∀ (frame : BitVec 2048) (laneFault : Bool),
        let f := frame.toNat
        let quiet := x.nakSent = true ∨ laneFault = true ∨ ∃ a ∈ x.asked, a.2.1 = false
        (frankGood f = false → ∃ t, exec (.frameReceive p frame laneFault) s = .next t
            ∧ t = { s with ports := t.ports, rc := t.rc, out := t.out } ∧ (t.port p.val).expected = x.expected
            ∧ fld (t.rcOf (aCou p.val 0x0C)) 0 16 = satAdd 16 (fld (s.rcOf (aCou p.val 0x0C)) 0 16) 1
            ∧ (¬ quiet → (t.port p.val).nakSent = true ∧ t.out.head? = some (.linkCtl p.val 2 (x.expected - 1).toNat 0))
            ∧ (quiet → t.out = (s.repeatAsks p.val).out))
        ∧ (frankGood f = true → frAckValid f = false → frCredits f = 0 →
          (BitVec.ofNat 16 (frStamp f) = x.expected → (∀ v, tget [] x.rxq v = []) →
            (isReserved f = false → (s.tree.id = none ∨ frType f = 1 ∨ frBcast f = true ∨ frDest f = s.ownId) → s.mustHold f = false →
              ∃ t, exec (.frameReceive p frame laneFault) s = .next t
                ∧ t = { s with ports := t.ports, tree := { s.tree with routes := t.tree.routes }, out := t.out }
                ∧ t.out.head? = some (.linkCtl p.val 3 1 (frVc f)) ∧ .linkCtl p.val 1 (frStamp f) 0 ∈ t.out
                ∧ .frameDelivered p.val f ∈ t.out
                ∧ (t.port p.val).expected = x.expected + 1 ∧ (t.port p.val).nakSent = false
                ∧ (p.val ≠ s.tree.upstream → frSrc f ≠ 0 → tget 0 t.tree.routes (frSrc f) = p.val + 1))
            ∧ (s.mustHold f = true → ∃ t, exec (.frameReceive p frame laneFault) s = .next t
                ∧ t = { s with ports := t.ports, out := t.out } ∧ t.out.head? = some (.linkCtl p.val 1 (frStamp f) 0)
                ∧ (t.port p.val).expected = x.expected + 1 ∧ tget [] (t.port p.val).rxq (frVc f) = [frame]))
          ∧ (BitVec.ofNat 16 (frStamp f) ≠ x.expected → notAfter (BitVec.ofNat 16 (frStamp f)) (x.expected - 1) = true →
            ∃ t, exec (.frameReceive p frame laneFault) s = .next t
              ∧ t = (s.repeatAsks p.val).sendCtl p.val 1 (x.expected - 1).toNat 0)
          ∧ (BitVec.ofNat 16 (frStamp f) ≠ x.expected → notAfter (BitVec.ofNat 16 (frStamp f)) (x.expected - 1) = false →
            ∃ t, exec (.frameReceive p frame laneFault) s = .next t ∧ t = (s.repeatAsks p.val).discard p.val laneFault)))
      ∧ (∀ stamp check, ctlTaken 1 stamp.toNat 0 check = true → notAfter stamp (x.stamp - 1) = true →
          ∃ t, exec (.ack p ⟨stamp, check⟩) s = .next t ∧ t = { s with ports := t.ports }
          ∧ (t.port p.val).replay = x.replay.filter (fun f => !notAfter (BitVec.ofNat 16 (frStamp f.toNat)) stamp)
          ∧ ∀ q, q ≠ p.val → t.port q = s.port q)
      ∧ (∀ (vc : Fin 4) (n : Nat) check, 1 ≤ n → n ≤ 64 → ctlTaken 3 n vc.val check = true →
          ∃ t, exec (.credit p vc ⟨n, check⟩) s = .next t ∧ t = { s with ports := t.ports }
          ∧ tget 0 (t.port p.val).credits vc.val = min (bufferOf vc.val) (tget 0 x.credits vc.val + n)
          ∧ (∀ v, v ≠ vc.val → tget 0 (t.port p.val).credits v = tget 0 x.credits v) ∧ ∀ q, q ≠ p.val → t.port q = s.port q)
      ∧ (∀ (f : BitVec 2048) (fs : List (BitVec 2048)), x.replay = f :: fs →
          let waited := max s.now (x.oldestSince + 2 * tuPerUs)
          (x.resends < 4 → ∃ t, exec (.replayTimeout p) s = .next t ∧ resent t waited)
          ∧ (4 ≤ x.resends → ∃ t, exec (.replayTimeout p) s = .next t ∧ t = (s.advance waited).enterRecovery p.val ∧ recovers t)
          ∧ ∀ stamp check, ctlTaken 2 stamp.toNat 0 check = true → s.resendShort p.val stamp = false →
              notAfter (BitVec.ofNat 16 (frStamp f.toNat) - 1) stamp = true →
              (x.resends < 4 → ∃ t, exec (.nak p ⟨stamp, check⟩) s = .next t ∧ resent t s.now)
              ∧ (4 ≤ x.resends → ∃ t, exec (.nak p ⟨stamp, check⟩) s = .next t ∧ t = s.enterRecovery p.val ∧ recovers t))
      ∧ (∃ t, exec (.couCmdRetrain p) s = .next t ∧ t = s.enterRecovery p.val ∧ recovers t
          ∧ (t.port p.val).due = some (s.now + 2 * tuPerMs))
      ∧ (∃ t, exec (.elasticBufferOverflow p) s = .next t ∧ t = s.enterRecovery p.val ∧ recovers t
          ∧ (t.port p.val).due = some (s.now + 2 * tuPerMs))
      ∧ (∃ t, exec (.fillerOn p) s = .next t ∧ (t.port p.val).fillerPending = true ∧ (t.port p.val).filler = x.filler
          ∧ t = { s with ports := t.ports })
      ∧ ∀ version role clock id lanes warm last epoch, ∃ t, exec (.capability p version role clock id lanes warm last epoch) s = .next t
          ∧ (t.port p.val).st = .recovery ∧ (t.port p.val).capSeen = true ∧ (t.src (60 + p.val)).sticky = true)
    ∧ (x.st = .capability ∨ x.st = .recovery →
      (∀ stamp check, ctlTaken 1 stamp.toNat 0 check = true → ∃ t, exec (.ack p ⟨stamp, check⟩) s = .next t
          ∧ (t.port p.val).capAcked = true ∧ (t.port p.val).replay = x.replay ∧ t = { s with ports := t.ports })
      ∧ (∀ version role clock id lanes warm last epoch,
        let peer := BitVec.ofNat 64 (role % 256 + 2 ^ 8 * (clock % 256) + 2 ^ 16 * id.toNat + 2 ^ 32 * lanes.toNat
          + 2 ^ 40 * b2n warm + 2 ^ 48 * last.toNat)
        ∃ t, exec (.capability p version role clock id lanes warm last epoch) s = .next t ∧ t = s.takeCapability p.val peer warm
          ∧ (t.port p.val).capSeen = true ∧ (t.port p.val).peer = peer ∧ .linkCtl p.val 1 0xFFFF 0 ∈ t.out
          ∧ (s.role ≠ 2 → t = { s with ports := t.ports, out := t.out })))
    ∧ (∀ stamp n, (∀ check, ctlTaken 1 stamp.toNat 0 check = false → ∃ t, exec (.ack p ⟨stamp, check⟩) s = .next t ∧ t = s)
        ∧ (∀ check, ctlTaken 2 stamp.toNat 0 check = false → ∃ t, exec (.nak p ⟨stamp, check⟩) s = .next t ∧ t = s)
        ∧ ∀ (vc : Fin 4) check, ctlTaken 3 n vc.val check = false → ∃ t, exec (.credit p vc ⟨n, check⟩) s = .next t ∧ t = s)
    ∧ (∃ t, exec (.couCmdInjectFrank p) s = .next t ∧ (t.port p.val).injectFrank = true ∧ t = { s with ports := t.ports }
        ∧ ∀ q, q ≠ p.val → t.port q = s.port q)

/-- In ACTIVE a good LANE_DROP or LANE_ADD sets the change for a marker 100 ns or more later; a marker begins with the changes
due, ends a wait for rate matching and, for a drop, asserts source 56 + p. A received marker's mask becomes the receive mask; one
of another lane or alignment leads to RECOVERY; in SYMBOL_LOCK it gives its lane's number and the mapping. A receive lane with 16
bad headers, or without lock, is asked to be dropped while four are up and none failed beside it, and leads to RECOVERY otherwise;
ten seconds of good order ask for it back where AUTO_ADD is set. DETECT, TRAIN, BIT_LOCK, SYMBOL_LOCK, CAPABILITY and ACTIVE
follow one another on the lanes that passed; ACTIVE starts with credits 8, 16, 32, 64 and stamp 0, after RECOVERY with the stamps
kept and less the frames that go again. A state's timeout leads to DOWN, and 10 ms later to DETECT where ENABLE is set. TEST is
entered from DOWN by command, starts its pattern, and is left by command for DOWN. ENABLE written 1 brings a port up that is DOWN
with no retry due, written 0 takes it down but from TEST. BIT_SLIP moves a lane's boundary; INJECT_ONCE errors count at locked
checkers in the port's own loops and restart others; elsewhere in TEST they go out on the lanes, and nowhere from a port that
serves as a far end. A checker that serves counts its error where locked. COU_EYE starts a scan; its end gives the counts.
(spec/13_courier_links.md) -/
def Obligations.LanesAndPortStatesMove : Prop :=
  ∀ (p : Fin 4) (s : State),
    let x := s.port p.val
    (x.st = .active →
      (∀ (lane : Fin 4) (u : Nat) (check : BitVec 8),
        (x.tx.getLsbD lane.val = true → ctlTaken 4 0 lane.val check = true →
          x.changes.any (fun c => c.1 == lane.val && c.2.1 == false) = false →
          ∃ t, exec (.laneDrop p ⟨lane, check⟩ u) s = .next t
            ∧ (t.port p.val).changes = x.changes ++ [(lane.val, false, u + 100 * tuPerNs)] ∧ (t.port p.val).tx = x.tx
            ∧ t = { s with now := max s.now u, ports := t.ports })
        ∧ (x.tx.getLsbD lane.val = false → x.admitted.getLsbD lane.val = true → ctlTaken 5 0 lane.val check = true →
          x.changes.any (fun c => c.1 == lane.val && c.2.1 == true) = false →
          ∃ t, exec (.laneAdd p ⟨lane, check⟩ u) s = .next t
            ∧ (t.port p.val).changes = x.changes ++ [(lane.val, true, u + 100 * tuPerNs)] ∧ (t.port p.val).tx = x.tx
            ∧ t = { s with now := max s.now u, ports := t.ports }))
      ∧ (∀ u, (∀ c ∈ x.changes, u < c.2.2) → ∃ t, exec (.markerSend p u) s = .next t
          ∧ (t.port p.val).tx = x.tx ∧ (t.port p.val).filler = (x.filler || x.fillerPending) ∧ (t.port p.val).fillerPending = false
          ∧ (t.port p.val).markers = (x.markers + 1) % 65536
          ∧ t.out.head? = some (.marker p.val x.tx.toNat (!s.forwarded || (x.filler || x.fillerPending) || (s.role == 2 && s.tree.id.isNone)))
          ∧ t = { s with now := max s.now u, ports := t.ports, out := t.out })
      ∧ (∀ (lane : Fin 4) (add : Bool) (u v : Nat), x.changes = [(lane.val, add, v)] → v ≤ u →
          ∃ t, exec (.markerSend p u) s = .next t ∧ (∀ l < 4, (t.port p.val).tx.getLsbD l = if l = lane.val then add else x.tx.getLsbD l)
            ∧ (t.port p.val).changes = [] ∧ (add = false → (t.src (56 + p.val)).sticky = true))
      ∧ (∀ (lane : Fin 4) (content : BitVec 64) (counted : Fin 32) (fill : Int), isMarker content.toNat = true →
          let v := content.toNat
          let fits := markerLane v = mapLane x.reversed lane.val ∧ markerOffset v = counted.val
          let mask := mapMask x.reversed (BitVec.ofNat 4 (markerMask v))
          (¬ fits → ∃ t, exec (.markerReceive p lane content counted fill) s = .next t ∧ (t.port p.val).st = .recovery)
          ∧ (fits → x.asked = [] → (∀ w, tget [] x.rxq w = []) →
            (mask = x.rx → ∃ t, exec (.markerReceive p lane content counted fill) s = .next t ∧ (t.port p.val).rx = x.rx
              ∧ t = { s with ports := t.ports, out := t.out })
            ∧ (mask ≠ x.rx → ∃ t, exec (.markerReceive p lane content counted fill) s = .next t ∧ (t.port p.val).rx = mask
              ∧ (∀ l < 4, x.rx.getLsbD l = true → mask.getLsbD l = false →
                  tget none (t.port p.val).laneSince l = some s.now ∧ (t.src (56 + p.val)).sticky = true)
              ∧ SameButEvents { s with ports := t.ports } t)))
      ∧ (∀ (lane : Fin 4) (u n : Nat) (lost : Bool),
          (n < 16 → lost = false → ∃ t, exec (.laneFailure p lane u ⟨n, lost⟩) s = .next t ∧ t = s.rcAdd (aCou p.val (0x18 + 4 * lane.val)) n)
          ∧ (x.rx.getLsbD lane.val = true → (16 ≤ n ∨ lost = true) →
            (x.rx = 15#4 → failedBeside x lane.val (max s.now u) = false →
              ∃ t, exec (.laneFailure p lane u ⟨n, lost⟩) s = .next t ∧ (t.port p.val).rx = x.rx
                ∧ tget none (t.port p.val).failedAt lane.val = some (max s.now u)
                ∧ (t.port p.val).asked = x.asked.filter (fun a => a.1 != lane.val) ++ [(lane.val, false, max s.now u + 200 * tuPerNs)]
                ∧ t.rcOf (aCou p.val (0x18 + 4 * lane.val)) = satAdd 32 (s.rcOf (aCou p.val (0x18 + 4 * lane.val))) n
                ∧ t.out.head? = some (.linkCtl p.val 4 0 (mapLane x.reversed lane.val))
                ∧ t = { s with now := max s.now u, ports := t.ports, rc := t.rc, out := t.out })
            ∧ (laneCount x.rx < 4 ∨ failedBeside x lane.val (max s.now u) = true →
                ∃ t, exec (.laneFailure p lane u ⟨n, lost⟩) s = .next t ∧ (t.port p.val).st = .recovery)))
      ∧ (∀ (lane : Fin 4) (u : Nat), tget none x.laneSince lane.val = some u → x.rx.getLsbD lane.val = false →
          (s.reg (aCou p.val 0)).testBit 1 = true →
          ∃ t, exec (.laneReturnTimeout p lane) s = .next t ∧ t = (s.advance (u + 10 * tuPerSec)).askLane p.val lane.val true
            ∧ t.out.head? = some (.linkCtl p.val 5 0 (mapLane x.reversed lane.val))
            ∧ t = { s with now := max s.now (u + 10 * tuPerSec), ports := t.ports, out := t.out }))
    ∧ (x.st = .symbolLock → ∀ (lane : Fin 4) (content : BitVec 64) (counted : Fin 32) (fill : Int), isMarker content.toNat = true →
        ∃ t, exec (.markerReceive p lane content counted fill) s = .next t
          ∧ tget none (t.port p.val).numbers lane.val = some (markerLane content.toNat)
          ∧ (t.port p.val).reversed = chooseReversed (t.port p.val).numbers x.rx)
    ∧ (∀ lane : Fin 4,
        let locked := tget 0 x.checkAt lane.val + checkerLockBits * bitTime ≤ s.now
        (s.checkerServes p.val lane.val = true → ∃ t, exec (.checkerBitError p lane) s = .next t
          ∧ (locked → t.rcOf (aCou p.val (0x38 + 4 * lane.val)) = satAdd 32 (s.rcOf (aCou p.val (0x38 + 4 * lane.val))) 1)
          ∧ (¬ locked → t.rc = s.rc ∧ tget 0 (t.port p.val).checkAt lane.val = s.now)
          ∧ (x.st = .active → tget none (t.port p.val).laneSince lane.val = some s.now)
          ∧ t = { s with ports := t.ports, rc := t.rc })
        ∧ (s.checkerServes p.val lane.val = false → ∃ t, exec (.checkerBitError p lane) s = .next t ∧ t = s))
    ∧ (∀ (tx rx inv : BitVec 4) (work : LaneWork),
        let moves : State → PortState → Prop := fun t b => (t.port p.val).st = b ∧ (t.port p.val).due = (stateLimit b).map (s.now + ·)
          ∧ (∀ q, q ≠ p.val → t.port q = s.port q) ∧ SameButEvents { s with ports := t.ports } t
        let y := symbolLanes x tx rx inv work
        let z := symbolLanes { x with tx := x.found, rx := x.foundRx } tx rx inv work
        (x.st = .detect → tx ≠ 0 → ∃ t, exec (.portStateAdvance p tx rx inv work) s = .next t ∧ moves t .train
            ∧ (t.port p.val).tx = tx ∧ (t.port p.val).rx = 15#4)
        ∧ (x.st = .train → ∃ t, exec (.portStateAdvance p tx rx inv work) s = .next t ∧ moves t .bitLock
            ∧ (t.port p.val).tx = x.tx &&& tx ∧ (t.port p.val).rx = x.rx &&& rx)
        ∧ (x.st = .bitLock → ∃ t, exec (.portStateAdvance p tx rx inv work) s = .next t ∧ moves t .symbolLock
            ∧ (t.port p.val).tx = x.tx &&& tx ∧ (t.port p.val).rx = x.rx &&& rx)
        ∧ (x.st = .symbolLock → lanesEnough y = true → ∃ t, exec (.portStateAdvance p tx rx inv work) s = .next t ∧ moves t .capability
            ∧ (t.port p.val).tx = y.tx ∧ (t.port p.val).rx = y.rx ∧ (t.port p.val).reversed = y.reversed)
        ∧ (x.st = .symbolLock → lanesEnough y = false → ∃ t, exec (.portStateAdvance p tx rx inv work) s = .next t ∧ t = s)
        ∧ (x.st = .capability → x.capSeen = true → x.capAcked = true →
          ∃ t, exec (.portStateAdvance p tx rx inv work) s = .next t ∧ (t.port p.val).st = .active ∧ (t.port p.val).stamp = 0
            ∧ (t.port p.val).expected = 0 ∧ (t.port p.val).replay = []
            ∧ (t.port p.val).credits = [(0, 8), (1, 16), (2, 32), (3, 64)] ∧ (t.port p.val).skewDone = false)
        ∧ (x.st = .recovery → x.relocked = false → lanesEnough z = true →
          ∃ t, exec (.portStateAdvance p tx rx inv work) s = .next t ∧ (t.port p.val).st = .recovery ∧ (t.port p.val).relocked = true
            ∧ (t.port p.val).tx = z.tx ∧ (t.port p.val).rx = z.rx)
        ∧ (x.st = .recovery → x.relocked = true → x.capSeen = true → x.capAcked = true →
          let rest := x.replay.filter (fun f => !notAfter (BitVec.ofNat 16 (frStamp f.toNat)) (BitVec.ofNat 16 (fld x.peer.toNat 48 16)))
          ∃ t, exec (.portStateAdvance p tx rx inv work) s = .next t ∧ (t.port p.val).st = .active ∧ (t.port p.val).stamp = x.stamp
            ∧ (t.port p.val).expected = x.expected ∧ (t.port p.val).replay = rest ∧ (t.port p.val).credits = creditsAfter rest))
    ∧ (∀ u, x.due = some u → ∃ t, exec (.portStateTimeout p) s = .next t ∧ (t.port p.val).st = .down
        ∧ (t.port p.val).retryDue = some (max s.now u + 10 * tuPerMs) ∧ t.now = max s.now u)
    ∧ (∀ u, x.st = .down → x.retryDue = some u → (s.reg (aCou p.val 0)).testBit 0 = true →
        ∃ t, exec (.portDownRetry p) s = .next t ∧ (t.port p.val).st = .detect ∧ (t.port p.val).retryDue = none ∧ t.now = max s.now u)
    ∧ (∀ found, x.st = .detect → ∃ t, exec (.detectPoll p found) s = .next t
        ∧ (t.port p.val).st = (if found = 0 then .detect else .train) ∧ (found ≠ 0 → (t.port p.val).tx = found)
        ∧ t.now = max s.now (s.nextMoment (60 + p.val) tuPerMs))
    ∧ (x.st = .down → s.boot.thermLatched = false → ∃ t, exec (.couCmdTest p) s = .next t ∧ (t.port p.val).st = .test
        ∧ (t.port p.val).retryDue = none ∧ t.out.head? = some (.pattern p.val 0xF (fld (s.reg (aCou p.val 0x28)) 4 3))
        ∧ SameButEvents { s with ports := t.ports } t)
    ∧ (x.st = .test → ∃ t, exec (.couCmdTestExit p) s = .next t ∧ (t.port p.val).st = .down
        ∧ (t.port p.val).retryDue = some (s.now + 10 * tuPerMs) ∧ SameButEvents { s with ports := t.ports } t)
    ∧ (∀ lane : Fin 4, x.st = .test → (s.reg (aCou p.val 0x28)).testBit 3 = true → ∃ t, exec (.couCmdBitSlip p lane) s = .next t
        ∧ tget 0 (t.port p.val).slips lane.val = (tget 0 x.slips lane.val + 1) % 66 ∧ t = { s with ports := t.ports })
    ∧ (x.st = .test →
        let hit := fun l => (s.reg (aCou p.val 0x28)).testBit (7 + l) = true
        let locked := fun l => tget 0 x.checkAt l + checkerLockBits * bitTime ≤ s.now
        let go := bitsOf 4 (fld (s.reg (aCou p.val 0x28)) 7 4)
        ((s.loopPath p.val).inside = true → ∃ t, exec (.couCmdInjectOnce p) s = .next t ∧ t = { s with rc := t.rc, ports := t.ports }
          ∧ ∀ l < 4, (hit l → locked l → t.rcOf (aCou p.val (0x38 + 4 * l)) = satAdd 32 (s.rcOf (aCou p.val (0x38 + 4 * l))) 1)
              ∧ (hit l → ¬ locked l → tget 0 (t.port p.val).checkAt l = s.now)
              ∧ (¬ (hit l ∧ locked l) → t.rcOf (aCou p.val (0x38 + 4 * l)) = s.rcOf (aCou p.val (0x38 + 4 * l))))
        ∧ (s.loopPath p.val = .main ∨ s.loopPath p.val = .farEnd → ∃ t, exec (.couCmdInjectOnce p) s = .next t
          ∧ t = { s with out := (go.map (Emit.bitError p.val)).reverse ++ s.out })
        ∧ (s.loopPath p.val = .serveFar → ∃ t, exec (.couCmdInjectOnce p) s = .next t ∧ t = s))
    ∧ (∃ t, exec (.couCtrlEnableSet p) s = .next t ∧ (t.reg (aCou p.val 0)).testBit 0 = true
        ∧ (x.st = .down → x.retryDue = none → s.boot.thermLatched = false → (t.port p.val).st = .detect)
        ∧ (x.st ≠ .down → t = { s with regs := t.regs }))
    ∧ (∃ t, exec (.couCtrlEnableClear p) s = .next t ∧ (t.reg (aCou p.val 0)).testBit 0 = false
        ∧ (t.port p.val).st = (if x.st = .test then .test else .down) ∧ (x.st ≠ .test → (t.port p.val).retryDue = none))
    ∧ (∀ v : W32, ∃ t, exec (.couEyeWrite p v) s = .next t ∧ t.reg (aCou p.val 0x48) = v.toNat % 2 ^ 21
        ∧ (t.port p.val).eyeRunning = samplerRuns x.st ∧ (t.port p.val).eyeSince = s.now ∧ (t.port p.val).eyeDone = false
        ∧ t = { s with regs := t.regs, ports := t.ports })
    ∧ (∀ n, x.eyeRunning = true →
        let bits := 2 ^ eyeDwell (s.reg (aCou p.val 0x48))
        ∃ t, exec (.eyeScanDone p n) s = .next t ∧ (t.port p.val).eyeCompared = bits ∧ (t.port p.val).eyeMismatch = min n bits
          ∧ (t.port p.val).eyeDone = true ∧ (t.port p.val).eyeRunning = false
          ∧ t = { s with now := max s.now (x.eyeSince + bits * bitTime), ports := t.ports })

/-- DISCOVER makes a Branch outside the tree, reached first or again over its upstream link, answer, with that port as upstream;
another link becomes a cross link and ALREADY goes back; one for its own id is passed on. ANSWER on the Postmaster gives a device
that is new and not refused the lowest free id, a place in the tree and an ASSIGN, or posts the refusal with source 69; a parent
notes the port. ASSIGN gives a Branch id, hops and L_sys and starts its time unlocked; where its root locks anew to the forwarded
clock its ACTIVE ports enter RECOVERY, stamps and buffers kept; a parent hands an id on to the child's port, else to the first
that asked from the named port of its own. ALREADY marks a cross link. MATCH_TABLE sets a group's record, and takes the sites of
one that leaves the subtree out. JOIN and LEAVE change a group's members; the verdict of the only member ends a round with RESULT;
a late one is counted with source 38; the deadline ends a round with what has arrived; RESULT is kept and passed down a hop
further. SYNC SECOND goes down, brings the next rate word, the domain and a step, and the commit epoch once the device is in step.
PTU_MATCH_CFG chooses a combiner of the tree within 400 ns and sends its records, or sets MATCH_REFUSED. Frames of a boot image
are collected; one shorter than 832 bytes is refused with source 89 and reported, a Clerk image then leaves LIMITED; the
Postmaster posts a report. SKEW_CALIBRATION publishes a link's delay. (spec/14_hierarchy_and_postmark_time.md) -/
def Obligations.TreeMessagesBuildTheTreeAndMatch : Prop :=
  ∀ (p : Fin 4) (s : State),
    (∀ (hops : Nat) (parent : BitVec 10) (pp : Fin 4),
      let flags := b2n (fld s.boot.straps.toNat 2 2 == 2 && decide (s.boot.stage < 5))
      (s.role = 2 → s.tree.inTree = false → (s.tree.reached = false ∨ p.val = s.tree.upstream) →
        ∃ t, exec (.discover p hops parent pp) s = .next t
          ∧ t = ({ s with tree := { s.tree with upstream := p.val, reached := true, hops := hops, inEpoch := false } }).sendPort p.val
              msgAnswer 0 (Config.serial.toNat + 2 ^ 64 * 2 + 2 ^ 72 * p.val + 2 ^ 80 * flags))
      ∧ (s.role = 1 ∨ (s.role = 2 ∧ ¬ (s.tree.inTree = true ∧ s.tree.id = some parent.toNat) ∧ s.tree.reached = true
            ∧ p.val ≠ s.tree.upstream) →
        ∃ t, exec (.discover p hops parent pp) s = .next t ∧ (t.port p.val).cross = true
          ∧ t = (s.modPort p.val (fun x => { x with cross := true })).sendPort p.val msgAlready 0 s.ownId)
      ∧ (s.role = 2 → s.tree.inTree = true → s.tree.id = some parent.toNat → (s.port pp.val).st = .active → pp.val ≠ s.tree.upstream →
        ∃ t, exec (.discover p hops parent pp) s = .next t
          ∧ t = s.sendPort pp.val msgDiscover parent.toNat (hops + 2 ^ 8 * parent.toNat + 2 ^ 24 * pp.val)))
    ∧ (∀ (serial : BitVec 64) (role arrival pp : Fin 4) (need : Bool) (parent : BitVec 10) (come flight : Nat),
      let hops := come + 1
      let path := s.pathVia p.val parent.toNat flight
      (s.role = 1 → (∀ n ∈ s.tree.nodes, n.serial ≠ serial) →
        (s.refusesNode false hops path = true →
          ∃ t, exec (.answer p serial role arrival need parent pp come flight) s = .next t
            ∧ t = (s.event 7 pp.val hops).fault 69 (pp.val + 2 ^ 8 * hops) ∧ (t.src 69).sticky = true)
        ∧ (s.refusesNode false hops path = false →
          ∃ t id a, exec (.answer p serial role arrival need parent pp come flight) s = .next t ∧ s.freeId = some id ∧ 1 ≤ id ∧ id < 1024
            ∧ t.tree.nodes = s.tree.nodes ++ [⟨id, serial, hops, path, parent.toNat, arrival.val, pp.val, true⟩]
            ∧ (parent = 0 → (t.port p.val).child = some id ∧ (t.port p.val).cross = false)
            ∧ .message msgAssign (if parent = 0 then id else parent.toNat) a ∈ t.out))
      ∧ (s.role = 2 → s.tree.id = some parent.toNat →
        ∃ t, exec (.answer p serial role arrival need parent pp come flight) s = .next t
          ∧ t = { s with tree := { s.tree with asked := s.tree.asked ++ [(pp.val, arrival.val)] } }))
    ∧ (∀ (id : BitVec 10) (place : TreePlace) (lsys perHop : Nat), s.role = 2 →
      let up := if s.tree.reached = true then s.tree.upstream else p.val
      let fclk := fld (s.port up).peer.toNat 8 8 = 1 ∧ (s.port up).fclkOk = true
      let tree := { s.tree with id := some id.toNat, inTree := true, hops := place.hops, upstream := up, reached := true, lsys := lsys }
      (s.tree.inTree = false → s.ptu.started = false → (fclk → s.boot.refFclk = true) →
        ∃ t, exec (.assign p id place lsys perHop) s = .next t
        ∧ t = { s with tree := tree, boot := { s.boot with refFclk := t.boot.refFclk }, ptu := { s.ptu with
            started := true, anchor := 0, anchorAt := s.now, st := .locking, lastExchange := s.now } } ∧ (t.boot.refFclk = true ↔ fclk))
      ∧ (s.tree.inTree = false → fclk → s.boot.refFclk = false →
        ∃ t, exec (.assign p id place lsys perHop) s = .next t ∧ t.tree = tree ∧ t.boot.refFclk = true
          ∧ (∀ q : Fin 4, (s.port q.val).st = .active → (t.port q.val).st = .recovery ∧ (t.src (60 + q.val)).sticky = true
              ∧ (t.port q.val).replay = (s.port q.val).replay ∧ (t.port q.val).stamp = (s.port q.val).stamp)
          ∧ (∀ q : Fin 4, (s.port q.val).st ≠ .active → t.port q.val = s.port q.val))
      ∧ (∀ own, s.tree.inTree = true → s.tree.id = some own → own ≠ id.toNat →
        let arg := assignArg id.toNat place.hops place.port.val lsys perHop
        (∀ a, (∀ q < 4, (s.port q).child ≠ some id.toNat) → s.tree.asked.find? (fun a => a.2 == place.port.val) = some a → ∃ t, exec (.assign p id place lsys perHop) s = .next t
          ∧ t = (({ s with tree := { s.tree with asked := s.tree.asked.erase a } }).modPort a.1 (fun x =>
              { x with child := some id.toNat, cross := false })).sendPort a.1 msgAssign id.toNat arg)
        ∧ (∀ q, (List.range 4).find? (fun q => (s.port q).child == some id.toNat) = some q →
          ∃ t, exec (.assign p id place lsys perHop) s = .next t ∧ t = s.sendPort q msgAssign id.toNat arg)))
    ∧ (∀ id, ∃ t, exec (.already p id) s = .next t ∧ (t.port p.val).cross = true ∧ (t.port p.val).child = none
        ∧ (∀ q, q ≠ p.val → t.port q = s.port q) ∧ t = { s with ports := t.ports })
    ∧ (∀ (group : BitVec 8) (combiner : BitVec 10) (h : Nat) (inside : Bool), s.role = 2 → group ≠ 0 →
        let g := group.toNat
        (inside = true ∨ s.groupRunSites g = [] → ∃ t, exec (.matchTable group combiner h inside) s = .next t
          ∧ t = s.setMgroup g { s.mgroup g with combiner := combiner.toNat, h := h, inSubtree := inside, known := true })
        ∧ (inside = false → ∃ t, exec (.matchTable group combiner h inside) s = .next t
          ∧ (∀ k ∈ s.groupRunSites g, (t.site k).joined = none) ∧ (t.mgroup g).combiner = combiner.toNat ∧ (t.mgroup g).h = h
          ∧ (t.mgroup g).inSubtree = false ∧ (t.mgroup g).known = true))
    ∧ (∀ (group : BitVec 8) (dev : BitVec 10),
        let g := group.toNat
        let d := dev.toNat
        let x := s.mgroup g
        let begun := if x.joined.isEmpty then matchFresh x else x
        let joined := s.setMgroup g { begun with joined := x.joined ++ [d] }
        let left := s.setMgroup g { x with joined := x.joined.filter (· != d), verdicts := x.verdicts.filter (fun v => v.1 != d) }
        (d ∉ x.joined → ∃ t, exec (.join group dev) s = .next t
          ∧ t = if s.isCombiner g = true then joined else joined.send msgJoin x.combiner (g + 2 ^ 8 * d))
        ∧ (x.index = none → ∃ t, exec (.leave group dev) s = .next t
          ∧ t = if s.isCombiner g = true then left else left.send msgLeave x.combiner (g + 2 ^ 8 * d))
        ∧ (∀ (index : BitVec 52) (ok : Bool),
          (s.isCombiner g = true → x.joined = [d] → (∀ j, x.index = some j → j < index.toNat) →
            ∃ t, ∃ u : State, exec (.verdict group dev index ok) s = .next t ∧ t = u.sendResult s.ownId 0 (matchArg g index.toNat ok)
              ∧ u = { s with tree := u.tree } ∧ (t.mgroup g).result = some (index.toNat, ok) ∧ (t.mgroup g).resultSent = true)
          ∧ (s.isCombiner g = true → d ∈ x.joined →
              (∃ j, x.index = some j ∧ (index.toNat < j ∨ (index.toNat = j ∧ x.resultSent = true))) →
            ∃ t, exec (.verdict group dev index ok) s = .next t ∧ t = (s.rcAdd aMatchLate 1).fault 38 g ∧ (t.src 38).sticky = true)
          ∧ (∀ hops : Fin 11, ∃ t, exec (.result group index ⟨ok, hops⟩) s = .next t
              ∧ t = (s.setMgroup g { x with result := some (index.toNat, ok) }).sendResult x.combiner (hops.val + 1)
                  (matchArg g index.toNat ok)))
        ∧ (∀ i, x.index = some i → x.resultSent = false → s.isCombiner g = true →
          let ok := x.joined.all (fun d => s.verdictOf g d == some true)
          ∃ t, ∃ u : State, exec (.matchResultDeadline group) s = .next t ∧ t = u.sendResult s.ownId 0 (matchArg g i ok)
            ∧ u = { s with now := t.now, tree := u.tree } ∧ t.now = max s.now (x.deadline.getD 0)
            ∧ (t.mgroup g).resultSent = true ∧ (t.mgroup g).result = some (i, ok)))
    ∧ (∀ (secs : Nat) (rate epoch : W32) (warm domain : Bool) (step : Int), s.role = 2 → s.tree.inTree = true → s.tree.upstream = p.val →
        ∃ t, exec (.second p secs rate epoch warm domain step) s = .next t ∧ t.ptu.domainB = domain ∧ t.ptu.rate = s.ptu.rate
          ∧ .message msgSecond toAll (ofBytes (bytesOf 24 (secondArg secs rate.toInt epoch.toNat warm domain step))) ∈ t.out
          ∧ t.ptu.nextRate = (if s.forwarded = true then some rate.toInt else s.ptu.nextRate)
          ∧ t.ptu.stepAt = (if step = 0 then s.ptu.stepAt else some (secs, step))
          ∧ (s.forwarded = true → s.ptu.st ≠ .holdover → t.ptu.tbWarm = warm)
          ∧ (s.tree.inEpoch = false → s.ptu.stepped = true → (s.port p.val).skewDone = true → s.ptu.theta.natAbs ≤ 8000 →
              s.forwarded = false ∨ s.tree.aligned = true → t.tree.inEpoch = true ∧ t.cfg.epoch = epoch.toNat)
          ∧ (s.tree.inEpoch = true → t.tree = s.tree ∧ t.cfg = s.cfg))
    ∧ (∀ c : BitVec 10, s.role = 1 → fld (s.reg aMatchSel) 0 8 ≠ 0 →
        let g := fld (s.reg aMatchSel) 0 8
        (c = 0 ∨ ((∃ n ∈ s.tree.nodes, n.inTree = true ∧ n.id = c.toNat) ∧ s.combinerH c.toNat ≤ 3200000) →
          ∃ t, exec (.ptuMatchCfgWrite c) s = .next t
            ∧ t = (({ s with ptu := { s.ptu with matchRefused := false } }).setMgroup g { s.mgroup g with
                combiner := c.toNat, h := min 3200000 (s.combinerH c.toNat), inSubtree := c.toNat == 0, known := true }).sendTables [g])
        ∧ (c ≠ 0 → (∀ n ∈ s.tree.nodes, n.inTree = true → n.id ≠ c.toNat) ∨ 3200000 < s.combinerH c.toNat →
          ∃ t, exec (.ptuMatchCfgWrite c) s = .next t ∧ t = { s with ptu := { s.ptu with matchRefused := true } }))
    ∧ (∀ (kind : Fin 3) (bytes : List Byte), s.role ≠ 1 → s.bootMode = 2 → s.boot.stage = 3 →
        let all := tget [] s.tree.rxBoot kind.val ++ bytes
        (∃ t, exec (.bootData p kind bytes false) s = .next t ∧ tget [] t.tree.rxBoot kind.val = all
          ∧ (∀ k, k ≠ kind.val → tget [] t.tree.rxBoot k = tget [] s.tree.rxBoot k) ∧ t = { s with tree := t.tree })
        ∧ (all.length < 832 → ∃ t, exec (.bootData p kind bytes true) s = .next t ∧ tget [] t.tree.rxBoot kind.val = []
          ∧ t.boot.stage = (if kind = 0 then 6 else 3) ∧ (t.src 89).sticky = true
          ∧ .message msgBootReport 0 (ofBytes (bytesOf 4 (s.ownId + 2 ^ 16 * 13))) ∈ t.out))
    ∧ (∀ (kind : Fin 3) (bytes : List Byte) (last : Bool), s.role = 1 → bytes.length = 4 →
        ∃ t, exec (.bootData p kind bytes last) s = .next t ∧ t = s.event 9 (ofBytes (bytes.take 2)) (ofBytes (bytes.drop 2)))
    ∧ (∀ path flight, (s.port p.val).st = .active → (s.port p.val).child = none ∨ s.role ≠ 1 →
        ∃ t, exec (.skewCalibration p path flight) s = .next t ∧ (t.port p.val).path = path % 2 ^ 24 ∧ (t.port p.val).flight = flight
          ∧ (t.port p.val).skewDone = true ∧ t = { s with ports := t.ports })

/-- A PTU second without a step applies the waiting rate word without a jump of the time, pulses SYNC_OUT and PPS_OUT where
enabled and begins an exchange on each link to a child. The Postmaster sends the next word and step 100 ms before; a ToD message
with a good frank names the second 500 ms before. The third PPS edge in time that a message has named makes a source valid, and a
named edge of a valid one measures its offset; a bad message asserts source 75. A host write is one measurement, and the active
domain's first steps the time by it. A lost active source asserts source 72 and switches to the other domain where that is set and
valid, else HOLDOVER begins; SWITCH toggles the domain. T_SYNC is answered with T_REQ, T_REQ with T_RESP, and T_RESP gives the
offset, rounded half to even, by which the first steps the time; a disturbed or late exchange is discarded. Losing FCLK_IN, with
FILLER_ON sent up the link, or the exchanges enters HOLDOVER; FCLK_IN's return takes an ACTIVE upstream port through RECOVERY;
DEGRADED marks the runs under CS. A root phase step walks one unit. A generator armed before its start waits for it, one whose
only instant has passed is missed, and an endless series begins with the next instant to come; a firing generator causes a pulse
on the lines routed to it and moves on by its period. A read of the time captures it, and a read of the seconds returns and
releases it. (spec/14_hierarchy_and_postmark_time.md) -/
def Obligations.TimeUnitKeepsAndCorrectsTime : Prop :=
  ∀ s : State,
    (s.ptu.started = true → s.ptu.stepAt = none →
      ∃ t, exec .ptuSecond s = .next t ∧ t.now = max s.now (s.beforeSecond 0) ∧ t.timer tmSecond = s.nextSecond
        ∧ (let w := if s.role = 1 then s.ptu.sent else s.ptu.nextRate
           t.ptu.rate = w.getD s.ptu.rate)
        ∧ t.ptu.sent = none ∧ ptuUnits t.ptu t.now = ptuUnits s.ptu t.now
        ∧ (s.role ≠ 2 → ((s.reg aPtuCtrl).testBit 8 = true → .ppsOut t.now ∈ t.out) ∧ ((s.reg aPtuCtrl).testBit 10 = true → .syncOut t.now ∈ t.out))
        ∧ ∀ p, p < 4 → (s.port p).child.isSome = true → (t.port p).exSeq = (s.port p).exSeq + 1 ∧ (t.port p).exT1 = some t.ptuNow)
    ∧ (s.role = 1 → s.ptu.started = true → s.timer tmSync < s.nextSecond →
      let rate := s.ptu.nextRate.getD s.ptu.rate
      ∃ t, exec .syncSecondDue s = .next t ∧ t.now = max s.now (s.beforeSecond (100 * tuPerMs)) ∧ t.timer tmSync = s.nextSecond
        ∧ t.ptu.sent = some rate ∧ t.ptu.nextRate = none ∧ t.ptu.stepDue = none
        ∧ (∀ x, s.ptu.stepDue = some x → x ≠ 0 → t.ptu.stepAt = some (s.nextSecond, x))
        ∧ .message msgSecond toAll (ofBytes (bytesOf 24
            (secondArg s.nextSecond rate s.cfg.epoch s.ptu.tbWarm s.activeB (s.ptu.stepDue.getD 0)))) ∈ t.out)
    ∧ (s.role ≠ 2 → (s.reg aPtuCtrl).testBit 9 = true → s.ptu.started = true → s.timer tmTod < s.nextSecond →
      ∃ t m, exec .todOutDue s = .next t ∧ t.out = .tod m :: s.out ∧ todValid m = true ∧ fld m 32 48 = s.nextSecond % 2 ^ 48
        ∧ t = { s with now := max s.now (s.beforeSecond (500 * tuPerMs)), timers := t.timers, out := t.out })
    ∧ (∀ b, s.domainFor 1 = some b →
      let d := s.domainOf b
      (∀ u v n, d.ok = false → d.edges = 2 → d.todFor = some n → d.todEnd + 10 * tuPerMs ≤ u → d.lastEdge = some v →
          v + tuPerSec ≤ u + tuPerMs → u ≤ v + tuPerSec + tuPerMs →
        ∃ t, exec (.ppsEdge u) s = .next t ∧ (t.domainOf b).ok = true ∧ (t.domainOf b).edges = 3 ∧ (t.domainOf b).lastEdge = some u
          ∧ (t.domainOf b).todFor = none ∧ SameButEvents { s with now := max s.now u, ptu := t.ptu } t)
      ∧ (∀ u n, d.ok = true → d.todFor = some n → d.todEnd + 10 * tuPerMs ≤ u →
        ∃ t, exec (.ppsEdge u) s = .next t ∧ (t.domainOf b).offset = (n * tuPerSec : Nat) - (ptuTuAt s.ptu u : Int))
      ∧ (∀ (m : BitVec 128) (u : Nat), todValid m.toNat = true →
        ∃ t, exec (.todMessage m u) s = .next t ∧ (t.domainOf b).todFor = some (fld m.toNat 32 48) ∧ (t.domainOf b).todEnd = u
          ∧ t = { s with now := max s.now u, ptu := t.ptu }))
    ∧ (∀ (m : BitVec 128) (u : Nat), todValid m.toNat = false →
      ∃ t, exec (.todMessage m u) s = .next t ∧ t = (s.advance u).fault 75 0 ∧ (t.src 75).sticky = true)
    ∧ (∀ (v : BitVec 64) (b : Bool), s.domainFor 2 = some b → v.toInt.natAbs < tuPerSec →
      let theta := toSigned 48 (s.reg64 aPtuHostSec) * (tuPerSec : Int) + v.toInt
      ∃ t, exec (.ptuHostOfsTuWrite v) s = .next t ∧ (t.domainOf b).ok = true ∧ (t.domainOf b).offset = theta
        ∧ (t.domainOf b).lastEdge = some s.now
        ∧ (b = s.activeB → s.ptu.started = true → s.ptu.stepped = false → t.ptu.stepped = true ∧ t.ptu.st = .locked
            ∧ ptuUnits t.ptu t.now = ((ptuUnits s.ptu s.now : Int) + theta * (2 ^ 48 : Nat)).toNat))
    ∧ (∀ u, ∃ t, exec (.syncInEdge u) s = .next t
        ∧ t.ptu.syncErr = (ptuTuAt s.ptu u : Int) - (nearestSec (ptuTuAt s.ptu u) * tuPerSec : Nat)
        ∧ t = { s with now := max s.now u, ptu := { s.ptu with syncErr := t.ptu.syncErr } })
    ∧ (∀ b, (s.domainOf b).ok = true →
        let other := s.dual = true ∧ (s.reg aPtuCtrl).testBit 5 = true ∧ (s.domainOf (!b)).ok = true
        ∃ t, exec (.sourceLost b) s = .next t ∧ (t.domainOf b).ok = false ∧ (t.domainOf b).edges = 0
        ∧ (b ≠ s.activeB → t = { s with now := t.now, ptu := t.ptu })
        ∧ (b = s.activeB → (t.src 72).sticky = true ∧ (other → t.ptu.domainB = !s.ptu.domainB)
            ∧ (¬ other → s.ptu.st ≠ .unset → t.ptu.st = .holdover)))
    ∧ (s.dual = true → ∃ t, exec .ptuCtrlSwitch s = .next t
        ∧ t = ({ s with ptu := { s.ptu with domainB := !s.ptu.domainB } }).event 0x000B 2 0)
    ∧ (∀ (p : Fin 4) (seq : BitVec 16), s.role = 2 → s.tree.inTree = true → s.tree.upstream = p.val →
      (∀ t1 t2, ∃ t, exec (.tSync p seq t1 t2) s = .next t
        ∧ t = (s.modPort p.val (fun x => { x with exSeq := seq, exT1 := some t1, exT2 := t2, exT3 := s.ptuNow })).sendPort p.val
            msgTReq 0 (seq.toNat + 2 ^ 16 * time313 s.ptuNow))
      ∧ (∀ (t4 : Nat) (asym : Int) (resent naked : Bool) (walk : Int) (t1 : Nat),
        let x := s.port p.val
        let theta := roundDiv (((x.exT2 : Int) - t1) - ((t4 : Int) - x.exT3) - asym) 2
        let late := (x.exT2 : Int) + 10 * (tuPerMs : Nat) < s.ptuNow + roundDiv (((x.exT2 : Int) - t1) + ((t4 : Int) - x.exT3) + asym) 2
        x.exT1 = some t1 → x.exSeq = seq →
        (resent = true ∨ naked = true ∨ late →
          ∃ t, exec (.tResp p seq t4 asym resent naked walk) s = .next t ∧ t = s.setPort p.val { x with exT1 := none })
        ∧ (resent = false → naked = false → ¬ late →
          ∃ t, exec (.tResp p seq t4 asym resent naked walk) s = .next t ∧ t.ptu.theta = sat32 theta ∧ t.ptu.lastExchange = s.now
            ∧ t.ptu.stepped = true ∧ (t.port p.val).exT1 = none
            ∧ (s.ptu.started = true → s.ptu.stepped = false →
                ptuUnits t.ptu t.now = ((ptuUnits s.ptu s.now : Int) - theta * (2 ^ 48 : Nat)).toNat)
            ∧ (s.forwarded = true → t.ptu.phaseToWalk = walk)
            ∧ (theta.natAbs ≤ 400 → (t.port p.val).skewDone = true))))
    ∧ (∀ (p : Fin 4) (seq : BitVec 16) (t3 t4 : Nat), (s.port p.val).exT1.isSome = true → (s.port p.val).exSeq = seq →
        (s.port p.val).child.isSome = true →
        let a := toSigned 32 (s.free 30) + toSigned 16 (s.reg (aPtuAsym p.val))
        ∃ t, exec (.tReq p seq t3 t4) s = .next t ∧ t = (s.drawn.setPort p.val { s.port p.val with exT1 := none }).sendPort p.val
          msgTResp 0 (seq.toNat + 2 ^ 16 * time313 t4 + 2 ^ 112 * ofSigned 32 a + 2 ^ 144 * ((s.port p.val).path % 2 ^ 24)))
    ∧ (∀ (p : Fin 4) t1, (s.port p.val).exT1 = some t1 →
        let begun := if s.role = 2 ∧ p.val = s.tree.upstream then (s.port p.val).exT2 else t1
        ∃ t, exec (.exchangeTimeout p) s = .next t ∧ (t.port p.val).exT1 = none
        ∧ t = { s with now := max s.now (rootOfPtu s.ptu (begun + 10 * tuPerMs)), ports := t.ports })
    ∧ (s.role = 2 → s.forwarded = false → s.ptu.st ≠ .unset → s.ptu.st ≠ .holdover → ∃ t, exec .exchangeLoss s = .next t
        ∧ t.ptu.st = .holdover ∧ t.now = max s.now (s.ptu.lastExchange + 4 * tuPerSec) ∧ t.ptu.holdSince = t.now ∧ (t.src 70).sticky = true
        ∧ SameButEvents { s with now := t.now, ptu := t.ptu } t)
    ∧ (∀ step : Int, s.role = 2 → s.tree.inTree = true → s.forwarded = true → (s.port s.tree.upstream).fclkOk = true →
        step.natAbs ≤ 32 → s.ptu.st = .locked → ∃ t a, exec (.fclkInLoss step) s = .next t ∧ t.ptu.st = .holdover
          ∧ t.ptu.phaseToWalk = s.ptu.phaseToWalk - step ∧ (t.src 68).sticky = true ∧ (t.src 70).sticky = true
          ∧ (t.port s.tree.upstream).fclkOk = false ∧ .message msgFillerOn 0 a ∈ t.out ∧ t.boot.refFclk = false)
    ∧ (s.role = 2 → (s.port s.tree.upstream).fclkOk = false → ∃ t, exec .fclkRestored s = .next t
        ∧ t = (s.modPort s.tree.upstream (fun x => { x with fclkOk := true })).enterRecovery s.tree.upstream
        ∧ (t.port s.tree.upstream).fclkOk = true ∧ (t.port s.tree.upstream).st = (if (s.port s.tree.upstream).st = .active then .recovery
            else (s.port s.tree.upstream).st)
        ∧ ((s.port s.tree.upstream).st ≠ .active → t = { s with ports := t.ports }))
    ∧ (s.role = 2 → s.ptu.degraded = false → ∃ t, exec .degraded s = .next t ∧ t.ptu.degraded = true ∧ (t.src 71).sticky = true
        ∧ t.now = (if s.ptu.st = .holdover then max s.now (s.ptu.holdSince + 60 * tuPerSec) else s.now)
        ∧ ∀ k < 32, siteOn s.cv k mCS = true → ((s.site k).st = .run ∨ (s.site k).st = .hold ∨ (s.site k).st = .drain) →
            (t.site k).conditions = (s.site k).conditions ||| 16)
    ∧ (∀ up : Bool, (if up then 0 < s.ptu.phaseToWalk else s.ptu.phaseToWalk < 0) →
        ∃ t, exec (.rootPhaseStep up) s = .next t ∧ t.now = max s.now (s.ptu.phaseAt + 4 * tuPerUs) ∧ t.ptu.phaseAt = t.now
          ∧ t.ptu.phaseToWalk = s.ptu.phaseToWalk - (if up then 1 else -1) ∧ t.ptu.phase = s.ptu.phase + (if up then 1 else -1)
          ∧ t = { s with now := t.now, ptu := t.ptu, tree := t.tree })
    ∧ (∀ g : Fin 8, (s.gen g.val).arm = false → ∃ t, exec (.ptuGenCtrlArm g) s = .next t ∧ (∀ j, j ≠ g.val → t.gen j = s.gen j)
        ∧ (s.ptuNow ≤ s.genStart g.val → t.gen g.val = ⟨true, false, s.genStart g.val, 0⟩)
        ∧ (s.genStart g.val < s.ptuNow → s.genPeriod g.val = 0 → (t.gen g.val).arm = false ∧ (t.gen g.val).missed = true)
        ∧ (s.genStart g.val < s.ptuNow → 0 < s.genPeriod g.val → s.genCount g.val = 0 → (t.gen g.val).arm = true
            ∧ s.ptuNow ≤ (t.gen g.val).next ∧ (t.gen g.val).next < s.ptuNow + s.genPeriod g.val)
        ∧ t = { s with ptu := t.ptu })
    ∧ (∀ g : Fin 8, (s.gen g.val).arm = true →
        let at_ := rootOfPtu s.ptu (s.gen g.val).next
        ∃ t, exec (.generatorInstant g) s = .next t ∧ t.now = max s.now at_
        ∧ (t.gen g.val).next = (s.gen g.val).next + s.genPeriod g.val ∧ (t.gen g.val).fired = (s.gen g.val).fired + 1
        ∧ (t.gen g.val).arm = !(if s.genPeriod g.val = 0 then true
            else s.genCount g.val != 0 && decide (s.genCount g.val ≤ (s.gen g.val).fired + 1))
        ∧ (∀ l, l < 16 → routeMode (s.route l) = 2 → routeArg (s.route l) = g.val → tget [] t.trg.waiting l = tget [] s.trg.waiting l
            ++ [⟨at_ + routeDelay (s.route l), at_ + routeDelay (s.route l) + routeWidth (s.route l), s.route l⟩])
        ∧ t = { s with now := t.now, ptu := t.ptu, trg := t.trg })
    ∧ (∃ t, exec .ptuTimeCapture s = .next t ∧ t.ptu.captured = some (s.ptuNow % tuPerSec, s.ptuNow / tuPerSec % 2 ^ 48)
        ∧ t = { s with ptu := t.ptu, out := .readValue 0x7010 (s.ptuNow % tuPerSec % 2 ^ 32) :: s.out })
    ∧ (∃ t, exec .ptuTimeRelease s = .next t ∧ t = { s with
        ptu := { s.ptu with captured := none }, out := .readValue 0x701C (fld (match s.ptu.captured with | some (_, b) => b | none => s.ptuNow / tuPerSec % 2 ^ 48) 32 16) :: s.out })

/-- Training of a good population leaves memory TRAINED with one or three ranks' capacity, a spare, scrubbing on; a failed rank is
retired, a channel left without a spare asserts source 44; a refused population leaves memory untrained, source 45. A weak lane
queues a recentre; one that finds no setting asserts source 43 and erases the device. MR4 and sensor readings are kept; a doubled
rank or a DIMM at 83 degC doubles the refresh rate; source 46 asserts at 95 degC, 48 at the third miss. A refresh set is owed
while the debt allows, else issued, closing the rank's rows; an idle bank closes. A scrub reads its line: a clean one changes only
its open row, a corrected one counts and asserts source 41, an uncorrectable one is poisoned, logged, and asserts 42; a poisoned
line that can be decoded stays so. The first queued migration with a spare starts; each line moves it on, and at the end the spare
takes the rank, which is retrained to become the spare or is retired with source 44. A host request queues a rank once;
CLEAR_COUNTERS clears the poison count and log. Nothing else changes but for events. (spec/15_pattern_memory_controller.md) -/
def Obligations.MemoryIsTrainedRefreshedRepairedAndMigrated : Prop :=
  ∀ s : State,
    (s.boot.stage = 4 → s.mem.state = 1 → s.boot.cfgNext = none →
      ∀ c0 c1 c2 c3 : ChanFound,
      let found := [c0, c1, c2, c3]
      let dimms := (chanDimms c0).length
      (∀ c, badPopulation found = some c → ∃ t, exec (.trainingComplete c0 c1 c2 c3) s = .next t ∧ t.mem = { s.mem with state := 0 }
        ∧ (t.src 45).sticky = true)
      ∧ (badPopulation found = none → (∀ x ∈ found, x.failed = 0) →
        ∃ t, exec (.trainingComplete c0 c1 c2 c3) s = .next t ∧ t.mem.state = 2
          ∧ t.mem.capacity = (if dimms = 1 then 1 else 3) * (if (chanDimms c0).any (fun d => d.density == 32) then 2 ^ 32 else 2 ^ 31)
          ∧ (∀ c < 4, t.spareOf c = some (2 * dimms - 1)) ∧ (t.reg aMcCtrl).testBit 0 = true
          ∧ (s.cal.noRecord = false → t.boot.stage = 5))
      ∧ (badPopulation found = none →
        let failed : Nat → BitVec 4 := fun c => (found.getD c c0).failed
        ∃ t, exec (.trainingComplete c0 c1 c2 c3) s = .next t
          ∧ (∀ c < 4, ∀ r < 2 * dimms, (failed c).getLsbD r = true → (t.rank c r).retired = true)
          ∧ (∀ c < 4, (∃ r < 2 * dimms, (failed c).getLsbD r = true) → (t.src 44).sticky = true)
          ∧ (∀ c < 4, passingRanks (2 * dimms) (failed c) = [] → t.mem.state = 0)))
    ∧ (s.mem.state = 2 →
      (∀ (c rank : Fin 4) (weak : Bool), (s.rank c.val rank.val).retired = false →
        ∃ t, exec (.driftTrackingVisit c rank weak) s = .next t
          ∧ t.now = max s.now (s.nextMoment (16 + c.val * 4 + rank.val) (16 * tuPerTick))
          ∧ ((c.val, rank.val) ∈ t.mem.recentre ↔ (c.val, rank.val) ∈ s.mem.recentre ∨ weak = true)
          ∧ t = { s with now := t.now, timers := t.timers, mem := { s.mem with recentre := t.mem.recentre } })
      ∧ (∀ (c rank : Fin 4) (sub : Fin 2) (device : Fin 10), (c.val, rank.val) ∈ s.mem.recentre →
        (∀ multi, ∃ t, exec (.recentreComplete c rank sub device true multi) s = .next t
          ∧ t = { s with mem := { s.mem with recentre := s.mem.recentre.erase (c.val, rank.val) } })
        ∧ (s.isTarget c.val rank.val = false → (s.rank c.val rank.val).erased = [] →
          ∃ t, exec (.recentreComplete c rank sub device false false) s = .next t
            ∧ (t.rank c.val rank.val).erased = [(sub.val, device.val)] ∧ (t.src 43).sticky = true)
        ∧ (s.isTarget c.val rank.val = false → ∃ t, exec (.recentreComplete c rank sub device false true) s = .next t
            ∧ (t.rank c.val rank.val).readOnly = true ∧ (t.src 43).sticky = true))
      ∧ (∀ d : BitVec 16, ∃ t, exec (.mr4Poll d) s = .next t ∧ t.now = max s.now (s.nextMoment 0 (4 * tuPerTick))
        ∧ (∀ c < 4, ∀ r < 4, s.rankCounts c r = true → (t.rank c r).mr4Doubled = d.getLsbD (4 * c + r)
            ∧ (t.rank c r).mr4Normal = (if d.getLsbD (4 * c + r) then 0 else min 8 ((s.rank c r).mr4Normal + 1)))
        ∧ ((∃ c < 4, ∃ r < 4, s.rankCounts c r = true ∧ d.getLsbD (4 * c + r) = true) → t.mem.doubled = true)
        ∧ t = { s with now := t.now, timers := t.timers, mem := t.mem })
      ∧ (∀ temps : List (Option Int), ∃ t, exec (.dimmSensorRead temps) s = .next t
        ∧ t.now = max s.now (s.nextMoment 1 (40 * tuPerTick))
        ∧ (∀ i < 8, ∀ v, temps[i]? = some (some v) → tget 0 t.mem.temps i = v ∧ tget 0 t.mem.misses i = 0
            ∧ (380 ≤ v → (t.src 46).sticky = true) ∧ (332 ≤ v → t.mem.doubled = true))
        ∧ (∀ i < 8, temps[i]? = some none → tget 0 t.mem.misses i = min 3 (tget 0 s.mem.misses i + 1)
            ∧ (2 ≤ tget 0 s.mem.misses i → (t.src 48).sticky = true)))
      ∧ (∀ (c rank : Fin 4) (postpone : Bool),
        let x := s.rank c.val rank.val
        let u := { s with now := max s.now (s.nextMoment (96 + c.val * 4 + rank.val) s.refreshInterval),
                          timers := tset 0 s.timers (96 + c.val * 4 + rank.val) (s.nextMoment (96 + c.val * 4 + rank.val) s.refreshInterval) }
        (postpone = true → x.debt < 4 → ∃ t, exec (.refreshDue c rank true) s = .next t
          ∧ (t.rank c.val rank.val) = { x with debt := x.debt + 1 } ∧ t = { u with mem := { s.mem with ranks := t.mem.ranks } })
        ∧ (postpone = false ∨ 4 ≤ x.debt → ∃ t, exec (.refreshDue c rank postpone) s = .next t
          ∧ (t.rank c.val rank.val).debt = (if postpone then x.debt else x.debt - 1)
          ∧ (∀ sub < 2, ∀ bank < 32, tget (0, 0, 0) t.mem.banks (bankKey c.val rank.val sub bank) = (0, 0, 0))
          ∧ (∀ c' r' sub bank, sub < 2 → bank < 32 → r' < 4 → (c' ≠ c.val ∨ r' ≠ rank.val) →
              tget (0, 0, 0) t.mem.banks (bankKey c' r' sub bank) = tget (0, 0, 0) s.mem.banks (bankKey c' r' sub bank))
          ∧ t = { u with mem := { s.mem with ranks := t.mem.ranks, banks := t.mem.banks } }))
      ∧ (∀ line errs, (s.reg aMcCtrl).testBit 0 = true → s.mem.migration = none → line < s.mem.capacity →
        (s.decodeLine line errs = .clean → ∃ t, exec (.patrolScrub line errs) s = .next t ∧ t = s.touchBank line)
        ∧ (∀ d, s.decodeLine line errs = .corrected d ∨ s.decodeLine line errs = .correctedWide d →
          (line ∈ s.mem.poisoned → ∃ t, exec (.patrolScrub line errs) s = .next t ∧ t = s.touchBank line)
          ∧ (line ∉ s.mem.poisoned → ∃ t, exec (.patrolScrub line errs) s = .next t ∧ t.lineData line = s.lineData line
            ∧ t.rcOf (aMcCorr (lineChan line)) = satAdd 32 (s.rcOf (aMcCorr (lineChan line))) 1 ∧ (t.src 41).sticky = true
            ∧ SameButEvents { s with mem := t.mem } t))
        ∧ (s.decodeLine line errs = .uncorrectable → ∃ t, exec (.patrolScrub line errs) s = .next t ∧ line ∈ t.mem.poisoned
            ∧ t.lineData line = 0 ∧ t.mem.poisonLog.head? = some line ∧ t.mem.poisonCount = satAdd 32 s.mem.poisonCount 1
            ∧ (∀ l, l ≠ line → t.lineData l = s.lineData l) ∧ (t.src 42).sticky = true ∧ SameButEvents { s with mem := t.mem } t))
      ∧ (∀ c rank : Fin 4, s.rankCounts c.val rank.val = true → (s.rank c.val rank.val).retraining = false →
          (s.spareOf c.val).isSome = true → s.mem.migration = none →
          ∃ t, exec (.mcCmdMigrate c rank) s = .next t ∧ (c.val, rank.val) ∈ t.mem.queue
            ∧ ((c.val, rank.val) ∈ s.mem.queue → t = s) ∧ t = { s with mem := { s.mem with queue := t.mem.queue } }))
    ∧ (∀ (c rank : Fin 4) (sub : Fin 2) (bank : Fin 32),
        let key := bankKey c.val rank.val sub.val bank.val
        let b := tget (0, 0, 0) s.mem.banks key
        b ≠ (0, 0, 0) → ∃ t, exec (.bankIdleTimeout c rank sub bank) s = .next t ∧ tget (0, 0, 0) t.mem.banks key = (0, 0, 0)
          ∧ (∀ k, k ≠ key → tget (0, 0, 0) t.mem.banks k = tget (0, 0, 0) s.mem.banks k)
          ∧ t = { s with now := max s.now (b.2.1 + b.2.2 * tuPerNs), mem := { s.mem with banks := t.mem.banks } })
    ∧ (∀ c r sp, s.mem.migration = none → s.nextMigration = some (c, r) → s.spareOf c = some sp →
        ∃ t, exec .migrationStart s = .next t ∧ t.mem.migration = some ⟨c, r, sp, 0, []⟩ ∧ t.mem.queue = s.mem.queue.erase (c, r)
          ∧ SameButEvents { s with mem := t.mem } t)
    ∧ (∀ m, s.mem.migration = some m →
        (∀ errs, m.progress < s.rankSlice / 4 → s.migLine m ∉ s.mem.poisoned →
          (s.decodeLine (s.migLine m) errs = .clean → ∃ t, exec (.migrationLineCopy errs) s = .next t
            ∧ t.mem.migration = some { m with progress := m.progress + 1 }
            ∧ t = { s with mem := { s.mem with banks := t.mem.banks, migration := t.mem.migration } })
          ∧ (∀ d, s.decodeLine (s.migLine m) errs = .corrected d ∨ s.decodeLine (s.migLine m) errs = .correctedWide d →
            ∃ t, exec (.migrationLineCopy errs) s = .next t ∧ t.mem.migration = some { m with progress := m.progress + 1 }
            ∧ (t.src 41).sticky = true ∧ t.mem.lines = s.mem.lines ∧ t.mem.poisoned = s.mem.poisoned
            ∧ SameButEvents { s with mem := t.mem } t)
          ∧ (s.decodeLine (s.migLine m) errs = .uncorrectable → ∃ t, exec (.migrationLineCopy errs) s = .next t
            ∧ t.mem.migration = some { m with progress := m.progress + 1, bad := s.migLine m :: m.bad }
            ∧ s.migLine m ∈ t.mem.poisoned ∧ (t.src 42).sticky = true))
        ∧ (∀ errs, m.progress < s.rankSlice / 4 → s.migLine m ∈ s.mem.poisoned → ∃ t, exec (.migrationLineCopy errs) s = .next t
            ∧ t.mem.migration = some { m with progress := m.progress + 1 }
            ∧ t = { s with mem := { s.mem with banks := t.mem.banks, migration := t.mem.migration } })
        ∧ (s.rankSlice / 4 ≤ m.progress →
          let k := (s.logicalOf m.chan m.source).getD 0
          ∃ t, exec .migrationComplete s = .next t ∧ t.mem.migration = none ∧ t.physOf m.chan k = m.spare ∧ t.spareOf m.chan = none
            ∧ t.rank m.chan m.source = { Rank.reset with retraining := true } ∧ SameButEvents { s with mem := t.mem } t))
    ∧ (∀ (c rank : Fin 4), (s.rank c.val rank.val).retraining = true →
        (∃ t, exec (.rankRetrainComplete c rank true) s = .next t ∧ t.spareOf c.val = some rank.val
          ∧ (t.rank c.val rank.val).retraining = false ∧ t = { s with mem := t.mem })
        ∧ (∃ t, exec (.rankRetrainComplete c rank false) s = .next t ∧ (t.rank c.val rank.val).retired = true
          ∧ (t.rank c.val rank.val).retraining = false ∧ (t.src 44).sticky = true ∧ SameButEvents { s with mem := t.mem } t))
    ∧ (∃ t, exec .mcCmdClearCounters s = .next t ∧ t = { s with mem := { s.mem with poisonCount := 0, poisonLog := [] } })

/-- CALIBRATE queues its phases on its groups for its task, or with DEFER makes the groups DUE and completes. A sensor's latest
reading joins a group's last eight; a mean further than CAL_DT from the calibration makes an awake group DUE, an asleep group
STALE by its own reading. A group DUE for more than 1 s is CAL_OVERDUE with source 33, one asleep for 10 s STALE. A phase starts
where R22, the port and the limit allow, an internal one in place on a group in use; a loopback phase plays its script and asks
for the SENSE reading. A complete direct phase writes its codes and calibrates the group at its mean temperature; in place the
codes become targets, and a quantity in use left out makes the group PARTIAL; loopback and fixture phases store what they
measured, or on a bad signature are missed with source 32. A PARTIAL group that is DUE runs again. A trim step moves one code
towards its target. A lost replica asserts source 16 + g. STORE appends a record with the next sequence number, mapping out blocks
that fail with source 87; RESTORE_PREV loads the newest of the other generation and leaves every group STALE. SLEEP is set only
while the group's sites are IDLE. A loop starts where R22 allows, else it is refused; INJECT_ONCE counts an error per channel
whose checker is locked. (spec/16_calibration.md) -/
def Obligations.CalibrationKeepsGroupsInTrim : Prop :=
  ∀ (g : Fin 16) (s : State),
    let x := s.group g.val
    (∀ (h : Hdr) (groups phases : Nat) (store : Bool),
      (Accepts s h (.calibrate groups phases store false) → s.idsFresh → bitsOf 16 groups ≠ [] → bitsOf 3 phases ≠ [] →
        ∃ t u, exec (.calibrate h groups phases store false) s = .next t ∧ t.task s.so.nextId = some u ∧ u.st = .inService
          ∧ (∀ j < 16, (t.group j).queue = (s.group j).queue
              ++ if groups.testBit j then (bitsOf 3 phases).map (fun p => ⟨p, false, false, some s.so.nextId⟩) else [])
          ∧ t = { s with so := t.so, rc := t.rc, groups := t.groups })
      ∧ (Accepts s h (.calibrate groups phases store true) → s.so.tasks = [] → h.quiet = false →
        ∃ t, exec (.calibrate h groups phases store true) s = .next t ∧ Completed s t h 0 0
          ∧ (∀ j < 16, groups.testBit j = true → (t.group j).due = true ∧ (t.group j).deferred = true)
          ∧ SameButOffice { s with groups := t.groups } t))
    ∧ (∀ own : Int,
       let w := tget 0 s.adc.hk (33 + g.val)
       let temp := if w = 0 then own else codeTemp (sfld w.toNat 0 20)
       (x.isStale = true ∨ x.asleepAt = none →
        let n : Int := ((temp :: x.temps).take 8).length
        ∃ t, exec (.groupTemperatureRead g own) s = .next t ∧ (t.group g.val).temps = (temp :: x.temps).take 8
          ∧ t.now = max s.now (s.nextMoment (40 + g.val) (40 * tuPerTick))
          ∧ ((s.reg aCalCtrl).testBit 0 = true → s.isAsleep g.val = false → x.due = false →
              s.calDt * n < ((((temp :: x.temps).take 8).sum - x.calTemp * n).natAbs : Int) →
              (t.group g.val).due = true ∧ (t.group g.val).dueSince = t.now ∧ hasInternal (t.group g.val) = true)
          ∧ (∀ j, j ≠ g.val → t.group j = s.group j) ∧ t = { s with now := t.now, timers := t.timers, groups := t.groups })
       ∧ (∀ u, x.asleepAt = some u → s.calDt < ((temp - x.asleepTemp).natAbs : Int) →
        ∃ t, exec (.groupTemperatureRead g own) s = .next t ∧ (t.group g.val).isStale = true
          ∧ SameButEvents { s with now := t.now, timers := t.timers } t))
    ∧ (x.due = true → x.overdue = false → ∃ t, exec (.calOverdue g) s = .next t ∧ t.now = max s.now (x.dueSince + tuPerSec + 1)
        ∧ (t.group g.val).overdue = true ∧ (t.src 33).sticky = true ∧ SameButEvents { s with now := t.now } t)
    ∧ (∀ u, x.asleepAt = some u → x.isStale = false → ∃ t, exec (.stale g) s = .next t ∧ t.now = max s.now (u + 10 * tuPerSec)
        ∧ (t.group g.val).isStale = true ∧ SameButEvents { s with now := t.now } t)
    ∧ (∀ p, s.nextPhase g.val = some p →
        (p.phase = 0 → s.groupIn g.val inUse = true ∨ s.busyPhases < 4 → ∃ t, exec (.phaseStart g) s = .next t
          ∧ t.group g.val = { x with queue := { p with started := true, inPlace := s.groupIn g.val inUse } :: x.queue.erase p }
          ∧ (∀ j, j ≠ g.val → t.group j = s.group j) ∧ t = { s with groups := t.groups })
        ∧ (∀ k, p.phase = 1 ∧ k = 0 ∨ p.phase = 2 ∧ k = 2 ∧ s.loopbackValid g.val = true → portHeld x = false → s.busyPhases < 4 →
          let v := s.calScriptText k
          let b := s.inServiceConv false
          ∃ t, exec (.phaseStart g) s = .next t
          ∧ t.group g.val = { x with queue := { p with started := true } :: x.queue.erase p, peCal := true, sense := none }
          ∧ t.out = .peScript g.val (4 + k) (scriptMode3 v) (scriptDiv v) (scriptTransfers v none) :: s.out
          ∧ (t.conv b).queue = (s.conv b).queue ++ [{ calReq g.val with id := s.adc.nextId }]
          ∧ t = { s with groups := t.groups, rc := t.rc, out := t.out, adc := t.adc })
        ∧ (p.phase = 2 → p.task = none → s.loopbackValid g.val = false → portHeld x = false → s.busyPhases < 4 →
          ∃ t, exec (.phaseStart g) s = .next t ∧ (t.group g.val).missed.getLsbD 2 = true ∧ (t.group g.val).peCal = false
            ∧ (t.src 32).sticky = true ∧ t.cal = s.cal)
        ∧ (p.phase ≠ 0 → portHeld x = true ∨ 4 ≤ s.busyPhases → ∃ t, exec (.phaseStart g) s = .next t ∧ t = s))
    ∧ (∀ p rest, x.queue = p :: rest → s.r22 g.val = false → (∀ q ∈ p :: rest, q.phase ≠ 0) →
        ∃ t, exec (.phaseStart g) s = .next t ∧ t = s)
    ∧ (∀ p, x.queue.find? (·.started) = some p → p.task = none →
        (∀ codes fails, p.phase = 0 → p.inPlace = false → ∃ t, exec (.phaseComplete g (.internal codes) fails) s = .next t
          ∧ (∀ e ∈ codes, e.2.1 < 89 → (e.1 / 8 = g.val ∨ e.1 = 128 + g.val) →
              (∀ e' ∈ codes, e'.1 * 128 + e'.2.1 = e.1 * 128 + e.2.1 → e' = e) →
              t.trim (e.1 * 128 + e.2.1) = e.2.2.1 ∧ t.calibrated (e.1 * 128 + e.2.1) = e.2.2.1)
          ∧ (t.group g.val).calTemp = groupMean x ∧ (t.group g.val).calSeconds = s.ptuNow / tuPerSec ∧ (t.group g.val).due = false
          ∧ (t.group g.val).isStale = false ∧ (t.group g.val).overdue = false ∧ (t.group g.val).isPartial = false
          ∧ (t.group g.val).phases.getLsbD 0 = true)
        ∧ (∀ codes fails, p.phase = 0 → p.inPlace = true →
          let good := codes.filter (fun e => decide (1024 ≤ e.2.2.2))
          ∃ t, exec (.phaseComplete g (.internal codes) fails) s = .next t ∧ (∀ j, t.trim j = s.trim j)
          ∧ (∀ e ∈ good, e.2.1 < 18 → (e.1 / 8 = g.val ∨ e.1 = 128 + g.val) →
              (∀ e' ∈ good, e'.1 * 128 + e'.2.1 = e.1 * 128 + e.2.1 → e' = e) → t.calibrated (e.1 * 128 + e.2.1) = e.2.2.1)
          ∧ ((unmeasured g.val good).any (fun m => s.quantityUsed m.1 m.2) = true →
              (t.group g.val).isPartial = true ∧ (t.group g.val).due = true ∧ (t.group g.val).rerunAt = s.now + 64 * tuPerTick)
          ∧ ((unmeasured g.val good).any (fun m => s.quantityUsed m.1 m.2) = false →
              (t.group g.val).due = false ∧ (t.group g.val).calTemp = groupMean x))
        ∧ (∀ trips v fails, p.phase = 1 → x.sense = some v →
          (s.loopbackOk g.val v trips = false → ∃ t, exec (.phaseComplete g (.loopback trips) fails) s = .next t
            ∧ (t.group g.val).missed.getLsbD 1 = true ∧ (t.group g.val).peCal = false ∧ (t.src 32).sticky = true ∧ t.cal = s.cal)
          ∧ (s.loopbackOk g.val v trips = true → ∃ t, exec (.phaseComplete g (.loopback trips) fails) s = .next t
            ∧ (∀ r ∈ trips, r.1.val / 8 = g.val → (∀ r' ∈ trips, r'.1 = r.1 → r' = r) →
                t.calibrated (r.1.val * 128 + 100) = 2 ^ 31 + roundEven (r.2.2.1 + r.2.2.2) 8192 % 2 ^ 24)
            ∧ (t.group g.val).phases.getLsbD 1 = true ∧ (t.group g.val).missed.getLsbD 1 = false))
        ∧ (∀ refl v fails, p.phase = 2 → x.sense = some v →
          (s.fixtureOk g.val v refl = false → ∃ t, exec (.phaseComplete g (.fixture refl) fails) s = .next t
            ∧ (t.group g.val).missed.getLsbD 2 = true ∧ (t.group g.val).peCal = false ∧ (t.src 32).sticky = true ∧ t.cal = s.cal)
          ∧ (s.fixtureOk g.val v refl = true → ∃ t, exec (.phaseComplete g (.fixture refl) fails) s = .next t
            ∧ (∀ r ∈ refl, r.1.val / 8 = g.val → (∀ r' ∈ refl, r'.1 = r.1 → r' = r) →
                t.calibrated (r.1.val * 128 + 96) = 2 ^ 31 + ofSigned 24 (s.fixtureDelay r))
            ∧ ((s.reg aCalCtrl).testBit 4 = true → t.cfg.commitSeq = (s.cfg.commitSeq + 1) % 2 ^ 32)
            ∧ (t.group g.val).phases.getLsbD 2 = true ∧ (t.group g.val).missed.getLsbD 2 = false)))
    ∧ (x.due = true → x.isPartial = true → hasInternal x = false → ∃ t, exec (.inPlaceRerun g) s = .next t
        ∧ (t.group g.val).queue = x.queue ++ [⟨0, false, false, none⟩] ∧ t = { s with now := max s.now x.rerunAt, groups := t.groups })
    ∧ (∀ (c : Fin 128) (q : Fin 8) (delta : Int),
        let s1 := { s with cal := { s.cal with delta := tset 0 s.cal.delta (8 * (c.val / 8) + q.val) delta } }
        let k := c.val * 128 + 2 * q.val
        ((delta * 65536 - s.predicted (c.val / 8) q.val).natAbs : Int) ≤ 64 * 65536 →
        (∀ u n, s.deviceMode.testBit mBC = true →
          (s.group (c.val / 8)).queue.any (fun p => p.started && !p.inPlace) = false → s1.stepMoment c.val q.val = some (u, n) →
          64 < (s1.trimGap c.val q.val).natAbs →
          ∃ t, exec (.trimStep c q delta) s = .next t ∧ t.now = max s.now u
            ∧ t.trim k = moveCode (s.trim k) (if s1.trimGap c.val q.val < 0 then -1 else 1)
            ∧ (∀ j, j ≠ k → t.trim j = s.trim j) ∧ (∀ j, t.calibrated j = s.calibrated j))
        ∧ (s1.stepMoment c.val q.val = none → ∃ t, exec (.trimStep c q delta) s = .next t ∧ t = s1.lagCheck (c.val / 8)
            ∧ (∀ j, t.trim j = s.trim j) ∧ t = { s with cal := s1.cal, groups := t.groups }))
    ∧ (x.replicaOut = false → ∃ t, exec (.replicaOut g) s = .next t ∧ (t.group g.val).replicaOut = true
        ∧ (t.src (16 + g.val)).sticky = true ∧ SameButEvents s t)
    ∧ (4 ≤ blocksInUse s.cal.badBlocks → ∃ t r, exec (.calCmdStore 0) s = .next t ∧ t.cal.inForce = some r ∧ r ∈ t.cal.log
        ∧ (∀ f, newestRecord s.cal.log = some f → r.seq = f.seq + 1 ∧ r.genB = !f.genB) ∧ r.words = s.recordFields
        ∧ t = { s with cal := { s.cal with log := t.cal.log, inForce := t.cal.inForce, slot := t.cal.slot } })
    ∧ (∀ n, 4 ≤ blocksInUse s.cal.badBlocks → s.cal.slot < 32 → ∃ t, exec (.calCmdStore (n + 1)) s = .next t ∧ (t.src 87).sticky = true
        ∧ t.cal.badBlocks.getLsbD (usableSlot s.cal.badBlocks s.cal.slot / 2) = true)
    ∧ (∀ n, blocksInUse s.cal.badBlocks < 4 → ∃ t, exec (.calCmdStore n) s = .next t ∧ t = s)
    ∧ (∀ f r, s.cal.inForce = some f → newestRecord (s.cal.log.filter (fun r => r.genB != f.genB)) = some r →
        (∀ j < 16, s.isAsleep j = true ∨ ∀ k < 32, k ∈ s.groupSites j → (s.site k).st = .idle) →
        ∃ t, exec .calCmdRestorePrev s = .next t ∧ t.cal.inForce = some r ∧ t.cal.trims = r.words.filter (fun e => e.1 < 18432)
          ∧ (∀ j < 16, (t.group j).isStale = true))
    ∧ (∀ set, (set = true → ∀ k ∈ s.groupSites g.val, (s.site k).st = .idle) → ∃ t, exec (.calGroupCtrlSleep g set) s = .next t
        ∧ t.reg (aCalGroupCtrl g.val) = (if set then 1 else 0) ∧ (set = true → (t.group g.val).asleepAt.isSome = true)
        ∧ t = { s with regs := t.regs, groups := t.groups })
    ∧ ((∃ k ∈ s.groupSites g.val, (s.site k).st ≠ .idle) → ∃ t, exec (.calGroupCtrlSleep g true) s = .next t ∧ t = s)
    ∧ (x.loopRun = false →
        let ctrl := s.reg (aCalLoopCtrl g.val)
        (s.r22 g.val = true → x.queue.any (·.started) = false → ((loopScript ctrl).isSome = true → portHeld x = false) →
          ∃ t, exec (.calLoopRunSet g) s = .next t
          ∧ (t.group g.val).loopRun = true ∧ (t.group g.val).loopRefused = false ∧ (t.group g.val).loopFrom = s.now
          ∧ (t.reg (aCalLoopCtrl g.val)).testBit 0 = true ∧ .selfTest g.val (fld ctrl 1 2) (fld ctrl 3 2) (fld ctrl 5 2) ∈ t.out
          ∧ t = { s with regs := t.regs, groups := t.groups, rc := t.rc, out := t.out })
        ∧ (s.r22 g.val = false ∨ x.queue.any (·.started) = true ∨ ((loopScript ctrl).isSome = true ∧ portHeld x = true) →
          ∃ t, exec (.calLoopRunSet g) s = .next t ∧ t.group g.val = { x with loopRefused := true } ∧ t = { s with groups := t.groups })
        ∧ (∃ t, exec (.calLoopRunClear g) s = .next t ∧ t.group g.val = { x with loopRefused := false } ∧ t = { s with groups := t.groups }))
    ∧ (x.loopRun = true →
        (∃ t, exec (.calLoopRunClear g) s = .next t ∧ (t.group g.val).loopRun = false ∧ (t.group g.val).peCal = false
          ∧ (t.reg (aCalLoopCtrl g.val)).testBit 0 = false
          ∧ t = { s with regs := t.regs, groups := t.groups, rc := t.rc, out := t.out })
        ∧ ((x.loopFrom + 64 * loopBit (s.reg (aCalLoopCtrl g.val)) ≤ s.now → ∃ t, exec (.calLoopInjectOnce g) s = .next t ∧ t = { s with rc := t.rc, groups := t.groups }
            ∧ (t.group g.val).loopFrom = x.loopFrom
            ∧ ∀ i < 8, t.rcOf (aCalLoopErr (8 * g.val + i)) = satAdd 32 (s.rcOf (aCalLoopErr (8 * g.val + i))) 1)
          ∧ (s.now < x.loopFrom + 64 * loopBit (s.reg (aCalLoopCtrl g.val)) → ∃ t, exec (.calLoopInjectOnce g) s = .next t
            ∧ (t.group g.val).loopFrom = s.now ∧ t = { s with rc := t.rc, groups := t.groups })))

/-- An accepted MEASURE joins the queue of the converter that serves it, or of both; with PAIRCHK while a converter is out it
completes FAULTED. A conversion of an idle converter changes nothing; one of a request that it serves alone ends at the next
instant of the converter's 1 us grid and adds the clamped code once the discarded ones are past; the last one of a result raises
the counter and leaves Table 17.3's word as the latest result, counted for the MEASURE, kept in the housekeeping table, or given
to the group's calibration phase. A housekeeping round queues sixteen temperatures on MADC-A, nine supplies on MADC-B and channel
0 on both, urgent. A retest queues sixteen pair checks of channel 0 on both. A read of a low half freezes the latest result, and
the read of the high half returns the frozen one and ends the freeze. (spec/17_measurement_adc.md) -/
def Obligations.ConvertersMeasureAndDeliver : Prop :=
  ∀ s : State,
    (∀ (h : Hdr) (conv mux gain filter count : Nat) (urgent pairchk records buffer : Bool) (addr : Nat),
      Accepts s h (.measure conv mux gain filter count urgent pairchk records buffer addr) →
      (conv < 2 → pairchk = false → (s.conv (conv == 1)).isOut = false →
        ∃ t r, exec (.measure h conv mux gain filter count urgent pairchk records buffer addr) s = .next t
          ∧ (t.conv (conv == 1)).queue = (s.conv (conv == 1)).queue ++ [r] ∧ r.task = some s.so.nextId ∧ r.mux = mux ∧ r.gain = gain
          ∧ r.filter = filter ∧ r.left = count ∧ r.urgent = urgent ∧ r.records = records ∧ r.buffer = buffer ∧ r.pair = false
          ∧ t.conv (conv != 1) = s.conv (conv != 1) ∧ t = { s with so := t.so, rc := t.rc, adc := t.adc })
      ∧ (conv = 2 → s.adc.a.isOut = false → s.adc.b.isOut = false →
        ∃ t r, exec (.measure h conv mux gain filter count urgent pairchk records buffer addr) s = .next t
          ∧ t.adc.a.queue = s.adc.a.queue ++ [r] ∧ t.adc.b.queue = s.adc.b.queue ++ [r] ∧ r.task = some s.so.nextId ∧ r.mux = mux
          ∧ r.gain = gain ∧ r.filter = filter ∧ r.left = count ∧ r.urgent = urgent ∧ r.pair = true ∧ r.check = pairchk
          ∧ t = { s with so := t.so, rc := t.rc, adc := t.adc })
      ∧ (pairchk = true → s.adc.a.isOut = true ∨ s.adc.b.isOut = true → s.so.tasks = [] → h.quiet = false →
        ∃ t, exec (.measure h conv mux gain filter count urgent pairchk records buffer addr) s = .next t ∧ Completed s t h 6 0
          ∧ SameButOffice s t))
    ∧ (∀ (b : Bool) (code : Int) (ovr : Bool),
      ((s.conv b).cur = none → (s.conv b).queue = [] → ∃ t, exec (.adcConversion b code ovr) s = .next t ∧ t = s)
      ∧ (∀ r, (s.conv b).cur = some r → (s.conv b).queue = [] → r.pair = false →
        let c := s.conv b
        let n := r.skip + 2 ^ r.filter
        let at_ := s.nextMoment (90 + b2n b) 8000000
        let w := resultWord b (countResult (convert c r code ovr)) r
        (c.got + 1 < n → ∃ t, exec (.adcConversion b code ovr) s = .next t ∧ (t.conv b).got = c.got + 1
          ∧ (t.conv b).accum = (if c.got < r.skip then 0 else c.accum + min (max code (-524288)) 524287)
          ∧ (t.conv b).cur = some r ∧ (t.conv b).seq = c.seq ∧ t.conv (!b) = s.conv (!b) ∧ t.now = max s.now at_
          ∧ t = { s with now := t.now, timers := t.timers, adc := t.adc })
        ∧ (∀ id, n ≤ c.got + 1 → r.housekeeping = false → r.cal = none → r.task = some id → r.records = false → r.buffer = false →
          1 < r.left →
          ∃ t, exec (.adcConversion b code ovr) s = .next t ∧ (t.conv b).seq = (c.seq + 1) % 2 ^ 28
            ∧ fld (t.conv b).last.toNat 24 8 = (c.seq + 1) % 2 ^ 28 % 256 ∧ (t.conv b).last = w
            ∧ (t.conv b).accum = 0 ∧ (t.conv b).got = 0 ∧ t.now = max s.now at_
            ∧ (tget (0, 0, 0) t.adc.done id).1 = (tget (0, 0, 0) s.adc.done id).1 + 1
            ∧ (tget (0, 0, 0) t.adc.done id).2.2 = w ∧ t.conv (!b) = s.conv (!b)
            ∧ t = { s with now := t.now, timers := t.timers, adc := t.adc })
        ∧ (n ≤ c.got + 1 → r.housekeeping = true → r.task = none → ∃ t, exec (.adcConversion b code ovr) s = .next t
            ∧ tget 0 t.adc.hk r.mux = w ∧ (t.conv b).last = w)
        ∧ (∀ g, n ≤ c.got + 1 → r.housekeeping = false → r.cal = some g → r.task = none → ∃ t, exec (.adcConversion b code ovr) s = .next t
            ∧ (t.group g).sense = some (sfld w.toNat 0 20) ∧ (t.conv b).last = w
            ∧ t = { s with now := t.now, timers := t.timers, adc := t.adc, groups := t.groups })))
    ∧ (s.adc.a.isOut = false → s.adc.b.isOut = false →
      (∃ t, exec .housekeepingRound s = .next t ∧ t.now = max s.now (s.nextMoment 2 (40 * tuPerTick))
        ∧ (t.adc.a.queue.map (·.mux)) = s.adc.a.queue.map (·.mux) ++ (List.range 16).map (33 + ·) ++ [0]
        ∧ (t.adc.b.queue.map (·.mux)) = s.adc.b.queue.map (·.mux) ++ (List.range 8).map (49 + ·) ++ [58, 0]
        ∧ (∀ r ∈ t.adc.a.queue.drop s.adc.a.queue.length ++ t.adc.b.queue.drop s.adc.b.queue.length,
            r.urgent = true ∧ r.housekeeping = true ∧ r.skip = 2 ∧ r.filter = 1 ∧ r.gain = 0)
        ∧ t = { s with now := t.now, timers := t.timers, adc := t.adc }))
    ∧ (∃ t r, exec .adcCmdRetestA s = .next t ∧ t.adc.a.queue = s.adc.a.queue ++ [r] ∧ t.adc.b.queue = s.adc.b.queue ++ [r]
        ∧ r.retest = some false ∧ r.left = 16 ∧ r.mux = 0 ∧ r.pair = true ∧ t = { s with adc := t.adc })
    ∧ (∃ t r, exec .adcCmdRetestB s = .next t ∧ t.adc.a.queue = s.adc.a.queue ++ [r] ∧ t.adc.b.queue = s.adc.b.queue ++ [r]
        ∧ r.retest = some true ∧ r.left = 16 ∧ r.mux = 0 ∧ r.pair = true ∧ t = { s with adc := t.adc })
    ∧ (∀ pair : Fin 3,
        (∃ t, exec (.adcResultFreeze pair) s = .next t ∧ tget none t.adc.frozen pair.val = some (s.adcLatest pair.val)
          ∧ t = { s with adc := { s.adc with frozen := t.adc.frozen },
                         out := .readValue (aAdcPair pair.val) ((s.adcLatest pair.val).toNat % 2 ^ 32) :: s.out })
        ∧ (∀ w, tget none s.adc.frozen pair.val = some w → ∃ t, exec (.adcResultRelease pair) s = .next t
          ∧ tget none t.adc.frozen pair.val = none
          ∧ t = { s with adc := { s.adc with frozen := t.adc.frozen },
                         out := .readValue (aAdcPair pair.val + 4) (w.toNat / 2 ^ 32) :: s.out }))

/-- An accepted CLERK_CALL of a word with ENTRY makes a free customer context ready at it with its arguments in G0 to G7; of
another word it completes BAD_ENVELOPE. A sequential word takes its cycles, writes its result and moves on; a SAFE one starts the
count afresh. WAIT gives up the engine, and a woken context runs again by priority. END frees the context and completes its task
OK with G8 and G9. An undefined word, an ABORT word and the watchdog abort a routine without NOABORT, which counts in
CLERK_ABORTS; one with NOABORT stops with source 86. A customer's write beyond its capabilities aborts it with NOT_PERMITTED and
leaves the address. A word with one or two bit errors is corrected and counted with source 84 before it runs; one with more
asserts source 85. The time limit of a customer ends it with TIMEOUT, ABORT_CUSTOMER with CANCELLED, or waits where NOABORT is
set. A scrub counts what it corrects and leaves a bad inactive bank BAD. A pending swap exchanges the banks once every context
stands and completes IMAGE_ACTIVATE with the new bank's measurement; it is refused where the bank is no longer VERIFIED, and its
timeout completes with TIMEOUT in the old bank. (spec/18_clerk_microengine.md) -/
def Obligations.ClerkRunsAbortsAndSwaps : Prop :=
  ∀ s : State,
    (∀ (h : Hdr) (entry : Nat) (args : List Nat), Accepts s h (.clerkCall entry args) → s.clerk.swapPending = none →
      (entry % 8192 / 64) ∉ s.clerk.badBlocks →
      let k := s.freeCustomer
      (cwEntry (s.clerkWord (entry % 8192)) = true → ∃ t, exec (.clerkCall h entry args) s = .next t ∧ 6 ≤ k ∧ k ≤ 9
        ∧ (t.ctx k).busy = true ∧ (t.ctx k).isReady = true ∧ (t.ctx k).customer = true ∧ (t.ctx k).pc = entry % 8192
        ∧ (t.ctx k).task = some s.so.nextId ∧ (t.ctx k).stack = [] ∧ (t.ctx k).journal = [] ∧ (t.ctx k).startAt = s.now
        ∧ (∀ i < min 8 args.length, (tget 0 (t.ctx k).g i).toNat = args.getD i 0 % 2 ^ 32)
        ∧ (∀ j, j ≠ k → t.ctx j = s.ctx j) ∧ t = { s with so := t.so, rc := t.rc, clerk := t.clerk })
      ∧ (cwEntry (s.clerkWord (entry % 8192)) = false → s.so.tasks = [] → h.quiet = false →
        ∃ t, exec (.clerkCall h entry args) s = .next t ∧ Completed s t h 3 0 ∧ (t.ctx k).busy = false
          ∧ SameButOffice { s with clerk := t.clerk } t))
    ∧ (∀ k, s.clerk.running = some k →
      let x := s.ctx k
      let w := s.clerkWord x.pc
      (∀ (dst : Fin 16) (v : BitVec 64) (taken : Bool) (stall : Nat), cwSeq w = 0 → x.stack = [] → x.customer = false → x.pc < 8191 →
          s.clerk.sinceSafe + 1 + stall ≤ 2048 →
        (cwSafe w = false → ∃ t, exec (.clerkMicroword (.set dst v) taken stall 0 0) s = .next t
          ∧ tget 0 (t.ctx k).g dst.val = v ∧ (t.ctx k).pc = x.pc + 1 ∧ t.clerk.sinceSafe = s.clerk.sinceSafe + 1 + stall
          ∧ t.clerk.running = some k ∧ (∀ j, j ≠ k → t.ctx j = s.ctx j)
          ∧ t = { s with now := s.now + (1 + stall) * 8000, clerk := t.clerk })
        ∧ (cwSafe w = true → x.abortReq = none → ∃ t, exec (.clerkMicroword (.set dst v) taken stall 0 0) s = .next t
          ∧ tget 0 (t.ctx k).g dst.val = v ∧ (t.ctx k).pc = x.pc + 1 ∧ t.clerk.sinceSafe = 0 ∧ t.clerk.reqAt = none
          ∧ t = { s with now := s.now + (1 + stall) * 8000, rc := t.rc, clerk := t.clerk }))
      ∧ (∀ taken stall, 8 ≤ cwSeq w → x.journal = [] →
        (x.noAbort = false → ∃ t, exec (.clerkMicroword .none taken stall 0 0) s = .next t ∧ (t.ctx k).busy = false
          ∧ t.rcOf aClerkAborts = satAdd 32 (s.rcOf aClerkAborts) 1)
        ∧ (x.noAbort = true → ∃ t, exec (.clerkMicroword .none taken stall 0 0) s = .next t ∧ (t.ctx k).busy = false
          ∧ (t.src 86).sticky = true ∧ t.rcOf aClerkAborts = s.rcOf aClerkAborts))
      ∧ (∀ a v, cwSeq w ≠ 7 → x.customer = true → s.mayWrite a = false → x.journal = [] →
        ∃ t, exec (.clerkMicroword (.write a v) false 0 0 0) s = .next t ∧ t.clerk.viol = a ∧ (t.ctx k).busy = false
          ∧ t.regs = s.regs ∧ t.rcOf aClerkAborts = satAdd 32 (s.rcOf aClerkAborts) 1)
      ∧ (∀ op taken stall m n, x.journal = [] → 2 < m + n → ∃ t, exec (.clerkMicroword op taken stall m n) s = .next t
          ∧ (t.src 85).sticky = true ∧ t.clerk.badWord = some (s.clerk.active, x.pc) ∧ (t.ctx k).busy = false)
      ∧ (∀ op taken stall m n, m + n = 1 ∨ m + n = 2 → ∃ t, exec (.clerkMicroword op taken stall m n) s = .next t
          ∧ exec (.clerkMicroword op taken stall 0 0) (((s.rcAdd aClerkCorr 1).fault 84 0)) = .next t)
      ∧ (∀ c : Fin 10, c.val = k → cwSeq w = 5 → x.stack = [] → x.customer = false → x.pc < 8191 → s.clerk.sinceSafe < 2048 →
          x.abortReq = none → ∃ t, exec (.clerkWait c .none) s = .next t ∧ (t.ctx k).waiting = true ∧ (t.ctx k).isReady = false
            ∧ (t.ctx k).pc = x.pc + 1 ∧ t.clerk.running ≠ some k ∧ t.clerk.sinceSafe = 0 ∧ t.now = s.now + 8000)
      ∧ (∀ (c : Fin 10) (u : Machine.Task), c.val = k → cwSeq w = 6 → s.clerk.sinceSafe < 2048 → x.task = some u.id → s.so.tasks = [u] →
          u.hdr.quiet = false → ∃ t, exec (.clerkEnd c .none) s = .next t ∧ t.ctx k = { Ctx.reset with entry := x.entry }
            ∧ Completed { s with now := s.now + 8000 } t u.hdr 0 ((tget 0 x.g 8).toNat + 2 ^ 64 * (tget 0 x.g 9).toNat))
      ∧ (∀ (c : Fin 10) (u : Machine.Task), c.val = k → cwSeq w = 7 → x.noAbort = false → x.journal = [] → x.task = some u.id →
          s.so.tasks = [u] → ∃ t, exec (.clerkAbort c) s = .next t ∧ (t.ctx k).busy = false
            ∧ t.rcOf aClerkAborts = satAdd 32 (s.rcOf aClerkAborts) 1 ∧ Completed { s with now := s.now + 8000 } t u.hdr 6 0)
      ∧ (x.journal = [] → ∃ t, exec .watchdogExpiry s = .next t ∧ (t.src 86).sticky = true ∧ (t.ctx k).busy = false
          ∧ t.now = s.now + (2049 - s.clerk.sinceSafe) * 8000
          ∧ t.rcOf aClerkAborts = (if x.noAbort then s.rcOf aClerkAborts else satAdd 32 (s.rcOf aClerkAborts) 1)))
    ∧ (∀ c : Fin 10, (s.ctx c.val).busy = true → (s.ctx c.val).waiting = true → s.clerk.running = none → s.bestCtx = none →
        ∃ t, exec (.contextSwitch [c] []) s = .next t ∧ t.clerk.running = some c.val ∧ (t.ctx c.val).isReady = true
          ∧ (t.ctx c.val).waiting = false ∧ (∀ j, j ≠ c.val → t.ctx j = s.ctx j) ∧ t = { s with clerk := t.clerk })
    ∧ (∀ (c : Fin 10) (u : Machine.Task),
        let x := s.ctx c.val
        let s' := { s with now := max s.now (x.startAt + fld (s.reg aCustLimit) 0 16 * tuPerMs) }
        x.busy = true → x.customer = true → x.abortReq = none →
        (x.noAbort = false → s.clerk.running ≠ some c.val ∨ s.clerk.sinceSafe = 0 → x.journal = [] → x.task = some u.id →
          s.so.tasks = [u] → ∃ t, exec (.customerLimitExpiry c) s = .next t ∧ (t.ctx c.val).busy = false
            ∧ Completed s' t u.hdr 12 0)
        ∧ (x.noAbort = true → ∃ t, exec (.customerLimitExpiry c) s = .next t ∧ t.ctx c.val = { x with abortReq := some 12 }
            ∧ t = { s' with clerk := t.clerk }))
    ∧ (∀ k, 6 ≤ k → k ≤ 9 → (∀ j, (s.ctx j).journal = []) → (s.ctx k).customer = true → (s.ctx k).busy = true →
        (s.ctx k).abortReq = none →
        ∃ t, exec .clerkCmdAbortCustomer s = .next t
          ∧ ((s.ctx k).noAbort = true → (t.ctx k).abortReq = some 1 ∧ (t.ctx k).busy = true)
          ∧ ((s.ctx k).noAbort = false → s.clerk.running ≠ some k ∨ s.clerk.sinceSafe = 0 → (t.ctx k).busy = false))
    ∧ ((s.reg aClerkCtrl).testBit 0 = true → ∀ (b : Bool) (w : Fin 8192) (n : Nat),
        (n = 1 ∨ n = 2 → ∃ t, exec (.controlStoreScrub (if b then [] else [(w, n)]) (if b then [(w, n)] else [])) s = .next t
          ∧ t.rcOf aClerkCorr = satAdd 32 (s.rcOf aClerkCorr) 1 ∧ (t.src 84).sticky = true
          ∧ t.now = max s.now (s.nextMoment 3 (64 * tuPerTick)) ∧ SameButEvents { s with now := t.now, timers := t.timers } t)
        ∧ (2 < n → ∃ t, exec (.controlStoreScrub (if b then [] else [(w, n)]) (if b then [(w, n)] else [])) s = .next t
          ∧ t.rcOf aClerkUncorr = satAdd 32 (s.rcOf aClerkUncorr) 1
          ∧ t.clerk.badWord = some (b, w.val) ∧ (t.src 85).sticky = true
          ∧ t.clerk.inactive = (if b = s.clerk.active then s.clerk.inactive else .bad)
          ∧ SameButEvents { s with now := t.now, timers := t.timers, clerk := t.clerk } t))
    ∧ (∀ u due, s.clerk.swapPending = some (u.id, due) → s.so.tasks = [u] → u.hdr.quiet = false →
        (s.allStand = false → ∃ t, exec .bankSwap s = .next t ∧ t = s)
        ∧ (s.allStand = true → s.clerk.inactive = .verified → s.boot.rollback ≤ s.inactiveVersion →
          ∃ t, exec .bankSwap s = .next t ∧ t.clerk.active = !s.clerk.active ∧ t.clerk.swapPending = none
            ∧ t.clerk.inactive = .verified
            ∧ Completed s t u.hdr 0 (((tget none s.clerk.meas (b2n (!s.clerk.active))).getD 0).toNat % 2 ^ 64))
        ∧ (s.allStand = true → s.clerk.inactive ≠ .verified → ∃ t, exec .bankSwap s = .next t ∧ t.clerk.active = s.clerk.active
            ∧ t.clerk.swapPending = none ∧ Completed s t u.hdr 4 0)
        ∧ (∃ t, exec .swapTimeout s = .next t ∧ t.clerk.active = s.clerk.active ∧ t.clerk.swapPending = none
            ∧ t.now = max s.now due ∧ Completed { s with now := max s.now due } t u.hdr 12 0))

/-- POWER_ON_RESET clears the volatile state, samples the straps and starts at stage 0, keeping OTP, flash and the DIMMs'
contents; POR_N low and a brownout clear and hold. SYS_RESET.DEVICE needs its key and keeps the strap sample, the PCIe link and
the PF's VFs. The root PLL's lock leads past a flash that does not answer to LIMITED with source 88, to LIMITED for a host boot
and to stage 3 for a Courier boot; a failed stage leads to FAILED or LIMITED with its source. SEC_ARM arms for 1 ms; an armed OTP
command is refused, fails or is done, and disarms; an unarmed one is ignored. NVM_READ gives the bytes of a region; NVM_WRITE to a
protected region is not permitted, beyond one BAD_ENVELOPE, else its bytes stand in the flash. IMAGE_STAGE of a good CSP image
keeps it, of a bad one completes with the signature status and source 89; IMAGE_ACTIVATE needs one, and brings it into force.
ATTEST writes its 640 bytes or says that it needs them. THERM_N follows 100 and 97 degC with source 91; a thermal shutdown takes
memory and ports down and asserts source 92. (spec/20_boot_security_update.md, spec/19_fault_collection.md,
spec/22_balls_electrical_package.md) -/
def Obligations.ResetsBootImagesAndSecurity : Prop :=
  ∀ s : State,
    let m := { State.reset.mem with lines := s.mem.lines, poisoned := s.mem.poisoned }
    (∀ (straps : BitVec 8) (rswing : Nat), ∃ t, exec (.powerOnReset straps rswing) s = .next t ∧ t.boot.straps = straps
      ∧ t.boot.strapInvalid = strapsBad straps ∧ t.boot.stage = 0 ∧ t.boot.porLow = false ∧ t.boot.swing = swingOf rswing
      ∧ t.boot.programmed = s.boot.programmed ∧ t.boot.revoked = s.boot.revoked ∧ t.boot.roots = s.boot.roots
      ∧ t.boot.rollback = s.boot.rollback ∧ t.boot.locked = s.boot.locked ∧ t.boot.nor = s.boot.nor
      ∧ t.boot.norErased = s.boot.norErased ∧ (straps.getLsbD 0 = false → t.regs = [])
      ∧ t = { State.reset with pending := s.pending, host := s.host, freeCount := s.freeCount, out := t.out, chans := t.chans,
                               groups := t.groups, trg := { Trg.reset with level := s.trg.level }, mem := m, cal := { Cal.reset with log := s.cal.log }, boot := t.boot, regs := t.regs })
    ∧ (∃ t, exec .porNLow s = .next t ∧ exec .supplyBrownout s = .next t ∧ t.boot.porLow = true ∧ t.boot.stage = 0
      ∧ t.boot.programmed = s.boot.programmed ∧ t.boot.locked = s.boot.locked ∧ t.boot.nor = s.boot.nor
      ∧ t = { State.reset with pending := s.pending, host := s.host, freeCount := s.freeCount, out := t.out, chans := t.chans,
                               groups := t.groups, trg := { Trg.reset with level := s.trg.level }, mem := m, cal := { Cal.reset with log := s.cal.log }, boot := t.boot })
    ∧ (∀ key bit, key ≠ 0xDE57#16 ∨ bit = false → ∃ t, exec (.sysResetDevice key bit) s = .next t ∧ t = s)
    ∧ (s.boot.thermLatched = false → s.boot.porLow = false → ∃ t, exec (.sysResetDevice 0xDE57 true) s = .next t ∧ t.boot.stage = 0
      ∧ t.boot.straps = s.boot.straps ∧ t.boot.locked = s.boot.locked ∧ t.hif.rate = s.hif.rate ∧ t.hif.width = s.hif.width
      ∧ t = { State.reset with pending := s.pending, host := s.host, freeCount := s.freeCount, out := t.out, chans := t.chans,
                               groups := t.groups, trg := { Trg.reset with level := s.trg.level }, mem := m, cal := { Cal.reset with log := s.cal.log }, boot := t.boot,
                               regs := t.regs, hif := { Hif.reset with rate := s.hif.rate, width := s.hif.width, flit := s.hif.flit,
                                                                       vfEnabled := s.hif.vfEnabled, numVfs := s.hif.numVfs } })
    ∧ (∀ nor : BootRead, s.boot.stage = 0 → s.boot.porLow = false → s.boot.thermLatched = false →
      (nor.answers = false → ∃ t, exec (.rootPllLock nor) s = .next t ∧ t.boot.stage = 6 ∧ t.boot.refLock = true
        ∧ (t.src 88).sticky = true ∧ SameButEvents s t)
      ∧ (nor.answers = true → s.bootMode = 1 ∨ s.bootMode = 2 → ∃ t, exec (.rootPllLock nor) s = .next t
        ∧ t.boot.stage = (if s.bootMode = 1 then 6 else 3) ∧ t.boot.refLock = true ∧ t.boot.norLog2 = nor.log2.val
        ∧ t.boot.quad = nor.quad ∧ t = { s with boot := t.boot, cal := { s.cal with log := (s.logFound nor).1, badBlocks := (s.logFound nor).2 } }))
    ∧ (∀ good, s.boot.porLow = false →
      (s.boot.stage ≤ 1 → ∃ t, exec (.bootStageTimeout good) s = .next t ∧ t.boot.stage = 15
        ∧ (t.src (if good then 77 else 90)).sticky = true ∧ SameButEvents s t)
      ∧ (s.boot.stage = 2 → ∃ t, exec (.bootStageTimeout good) s = .next t ∧ t.boot.stage = 6 ∧ (t.src 88).sticky = true
        ∧ SameButEvents s t))
    ∧ (∀ v, ∃ t, exec (.secArm v) s = .next t
      ∧ t = { s with boot := { s.boot with armedUntil := if v = 0x5EC0#16 then some (s.now + tuPerMs) else none } })
    ∧ (∀ u, s.boot.armedUntil = some u → ∃ t, exec .secArmExpiry s = .next t
      ∧ t = { s with now := max s.now u, boot := { s.boot with armedUntil := none } })
    ∧ (∀ (slot : Fin 4) (v : BitVec 7) (ok : Bool),
      (s.boot.armedUntil = none → ∃ t, exec (.programRoot slot ok) s = .next t ∧ exec (.revoke slot ok) s = .next t
        ∧ exec (.advance v ok) s = .next t ∧ exec (.prodLock ok) s = .next t ∧ t = s)
      ∧ (∀ u, s.boot.armedUntil = some u → s.now ≤ u →
        (slot.val < 2 ∨ s.boot.programmed.getLsbD slot.val = true → ∃ t, exec (.programRoot slot ok) s = .next t
          ∧ t = { s with boot := { s.boot with armedUntil := none, cmdResult := 2 } })
        ∧ (2 ≤ slot.val → s.boot.programmed.getLsbD slot.val = false → ∃ t, exec (.programRoot slot ok) s = .next t
          ∧ t.boot.cmdResult = (if ok then 1 else 3) ∧ t.boot.armedUntil = none ∧ t.boot.programmed.getLsbD slot.val = ok
          ∧ (∀ k < 4, k ≠ slot.val → t.boot.programmed.getLsbD k = s.boot.programmed.getLsbD k)
          ∧ (ok = true → ∀ i < 8, fld (tget 0 t.boot.roots slot.val).toNat (32 * i) 32 = s.reg (aSecRootData + 4 * i))
          ∧ t = { s with boot := t.boot })
        ∧ (s.rootInUse slot.val = false → 2 ≤ (List.range 4).countP (fun j => s.rootGood j && j != slot.val) →
          ∃ t, exec (.revoke slot ok) s = .next t ∧ t.boot.cmdResult = (if ok then 1 else 3) ∧ t.boot.armedUntil = none
            ∧ (∀ k < 4, t.boot.revoked.getLsbD k = (s.boot.revoked.getLsbD k || (ok && decide (k = slot.val))))
            ∧ t = { s with boot := t.boot })
        ∧ (s.rootInUse slot.val = true → ∃ t, exec (.revoke slot ok) s = .next t
          ∧ t = { s with boot := { s.boot with armedUntil := none, cmdResult := 2 } })
        ∧ (∃ t, exec (.advance v ok) s = .next t ∧ t.boot.armedUntil = none
          ∧ (v.toNat ≤ s.boot.rollback ∨ 64 < v.toNat ∨ s.versionBelow v.toNat = true →
              t.boot.cmdResult = 2 ∧ t.boot.rollback = s.boot.rollback)
          ∧ (s.boot.rollback < v.toNat → v.toNat ≤ 64 → s.versionBelow v.toNat = false →
              t.boot.cmdResult = (if ok then 1 else 3) ∧ t.boot.rollback = (if ok then v.toNat else s.boot.rollback))
          ∧ t = { s with boot := t.boot })
        ∧ (∃ t, exec (.prodLock ok) s = .next t ∧ t.boot.armedUntil = none
          ∧ t.boot.cmdResult = (if s.boot.locked then 2 else if ok then 1 else 3) ∧ t.boot.locked = (s.boot.locked || ok)
          ∧ t = { s with boot := t.boot })))
    ∧ (∀ (h : Hdr) (region offset bytes addr : Nat), s.so.tasks = [] → h.quiet = false →
      (Accepts s h (.nvmRead region offset bytes addr) → offset + bytes ≤ (s.norRegion region).2 →
        let data := (List.range bytes).map (fun i => s.regionByte region (offset + i))
        ∃ t, exec (.nvmRead h region offset bytes addr) s = .next t
          ∧ Completed { s with host := writeBytes s.host addr data } t h 0 bytes ∧ SameButOffice s t)
      ∧ (Accepts s h (.nvmWrite region offset bytes addr) →
        ((s.norRegion region).2 < offset + bytes → ∃ t, exec (.nvmWrite h region offset bytes addr) s = .next t
          ∧ Completed s t h 3 0 ∧ SameButOffice s t)
        ∧ (offset + bytes ≤ (s.norRegion region).2 → s.norProtected region = true →
          ∃ t, exec (.nvmWrite h region offset bytes addr) s = .next t ∧ Completed s t h 4 0 ∧ SameButOffice s t)
        ∧ (offset + bytes ≤ (s.norRegion region).2 → s.norProtected region = false →
          ∃ t, exec (.nvmWrite h region offset bytes addr) s = .next t ∧ t.so.tasks = []
            ∧ (∀ i < bytes, t.norByte ((s.norRegion region).1 + offset + i) = readByte s.host (addr + i)))))
    ∧ (∀ (h : Hdr) (bytes addr : Nat), s.so.tasks = [] → h.quiet = false → Accepts s h (.imageStage 1 bytes addr) →
      s.csp.activatePending = none →
      let rd := hostImage s.host addr
      (bytes < 832 ∨ sgBytes rd ≠ bytes → ∃ t, exec (.imageStage h 1 bytes addr) s = .next t ∧ Completed s t h 3 0 ∧ SameButOffice s t)
      ∧ (832 ≤ bytes → sgBytes rd = bytes → s.verifies rd 1 = true → ∃ t, exec (.imageStage h 1 bytes addr) s = .next t
        ∧ tget none t.boot.staged 1 = some (stagedOf rd addr) ∧ Completed s t h 0 ((sgHash rd).toNat % 2 ^ 64)
        ∧ SameButOffice { s with boot := t.boot } t)
      ∧ (832 ≤ bytes → sgBytes rd = bytes → s.verifies rd 1 = false → ∃ t, exec (.imageStage h 1 bytes addr) s = .next t
        ∧ tget none t.boot.staged 1 = none ∧ (t.src 89).sticky = true ∧ t.so.tasks = []))
    ∧ (∀ h : Hdr, s.so.tasks = [] → h.quiet = false → Accepts s h (.imageActivate 1) → s.csp.activatePending = none →
      (tget none s.boot.staged 1 = none → ∃ t, exec (.imageActivate h 1) s = .next t ∧ Completed s t h 4 0 ∧ SameButOffice s t)
      ∧ (∀ im, tget none s.boot.staged 1 = some im → s.stillStaged im = true → s.csp.st ≠ .running →
        ∃ t, exec (.imageActivate h 1) s = .next t ∧ t.csp.st = .loaded ∧ t.csp.meas = some im.sha
          ∧ Completed s t h 0 (im.sha.toNat % 2 ^ 64) ∧ SameButOffice { s with csp := t.csp, boot := t.boot } t))
    ∧ (∀ (h : Hdr) (nonce addr bytes : Nat), s.so.tasks = [] → h.quiet = false → Accepts s h (.attest nonce addr bytes) →
      (bytes < 640 → ∃ t, exec (.attest h nonce addr bytes) s = .next t ∧ Completed s t h 5 640 ∧ SameButOffice s t)
      ∧ (640 ≤ bytes → ∃ t sig, exec (.attest h nonce addr bytes) s = .next t ∧ t.boot.quoteSeq = s.boot.quoteSeq + 1
        ∧ Completed { s with host := writeLE (writeLE s.host addr 256 (s.quoteBody nonce)) (addr + 256) 384 sig } t h 0 640
        ∧ SameButOffice { s with boot := { s.boot with quoteSeq := s.boot.quoteSeq + 1 } } t))
    ∧ (∀ temp : Int, ∃ t, exec (.thermWarn temp) s = .next t ∧ t.boot.thermTemp = temp
      ∧ t.boot.therm = (decide (100 ≤ temp) || (s.boot.therm && decide (97 ≤ temp))) ∧ (100 ≤ temp → (t.src 91).sticky = true)
      ∧ SameButEvents s t)
    ∧ (s.boot.thermLatched = false → ∃ t, exec .thermShutdown s = .next t ∧ t.boot.thermLatched = true ∧ t.mem.state = 0
      ∧ (∀ p < 4, (t.port p).st = .down ∧ (t.port p).retryDue = none)
      ∧ (∀ c < 128, (t.chan c).de = false ∧ (t.chan c).dh = false) ∧ (t.src 92).sticky = true)
    ∧ (s.boot.thermLatched = true → ∃ t, exec .thermShutdown s = .next t ∧ t = s)

/-- An assertion of a quiet source sets its sticky bit, starts its reaction, keeps the first detail and time, and logs it where it
has a reaction; a repeated one moves only its last time. The quiet period ends a reaction and counts a recovery, unless the source
asserts in that tick or its condition as the device reads it still holds. Writing sticky bits clears exactly those, but one that
asserts at once stays set. An injection marks the source as injected only. A release ends a reaction uncounted, but not a FATAL
source's. CLR_REC clears the recoveries, FC_LOG_SEL takes a snapshot. A free PE port that no calibration phase claims plays the
first claim; its last transfer's end counts, and a level's script counts for its survey. An accepted EYE_SURVEY of a running site
whose channels may be surveyed starts at its first offset with its channels' counts clear; of a site that does not run it is not
permitted, with a grid out of range BAD_ENVELOPE. A point's end writes each channel's counts and goes on to the next offset with
counts clear; after SETTLE a level counts. (spec/19_fault_collection.md, spec/07_mode_combinations.md,
spec/08_staging_and_commit.md) -/
def Obligations.FaultsScriptsAndSurveys : Prop :=
  ∀ s : State,
    (∀ (n : Fin 96) (d : W32),
      let x := s.src n.val
      (x.sticky = false → x.active = false → ∃ t, exec (.faultAssertion n d) s = .next t ∧ (t.src n.val).sticky = true
        ∧ (t.src n.val).active = true ∧ (t.src n.val).running = s.reaction n.val ∧ (t.src n.val).since = s.now
        ∧ (t.src n.val).lastAt = s.now ∧ (t.src n.val).detail = d ∧ (t.src n.val).firstAt = time64 s.ptuNow
        ∧ (t.src n.val).injOnly = false ∧ (t.src n.val).recoveries = x.recoveries
        ∧ (1 ≤ s.reaction n.val → ⟨n.val, s.reaction n.val, false, d, time64 s.ptuNow⟩ ∈ t.fc.log) ∧ SameButEvents s t)
      ∧ (x.sticky = true → x.active = true → ∃ t, exec (.faultAssertion n d) s = .next t ∧ (t.src n.val).detail = x.detail
        ∧ (t.src n.val).firstAt = x.firstAt ∧ (t.src n.val).lastAt = s.now ∧ (t.src n.val).since = x.since
        ∧ (t.src n.val).running = x.running ∧ SameButEvents s t)
      ∧ (x.active = true → s.quietTicks n.val ≠ 0 →
        (s.levelHolds n.val = false → ∃ t, exec (.quietPeriodExpiry n none) s = .next t ∧ t.now = max s.now (s.quietEnd n.val) ∧ (t.src n.val).active = false
          ∧ (t.src n.val).running = 0 ∧ (t.src n.val).recoveries = satAdd 16 x.recoveries 1 ∧ (t.src n.val).sticky = x.sticky
          ∧ (∀ m, m ≠ n.val → t.src m = s.src m) ∧ SameButEvents { s with now := t.now } t)
        ∧ (s.levelHolds n.val = true → ∃ t, exec (.quietPeriodExpiry n none) s = .next t ∧ (t.src n.val).active = true
          ∧ (t.src n.val).lastAt = t.now ∧ (t.src n.val).recoveries = x.recoveries ∧ t.now = max s.now (s.quietEnd n.val))
        ∧ (∃ t, exec (.quietPeriodExpiry n (some d)) s = .next t ∧ (t.src n.val).active = true ∧ (t.src n.val).lastAt = t.now
          ∧ (t.src n.val).recoveries = x.recoveries ∧ t.now = max s.now (s.quietEnd n.val)))
      ∧ (x.sticky = false → n.val ≠ 79 → ∃ t, exec (.fcInject n false) s = .next t ∧ (t.src n.val).sticky = true
        ∧ (t.src n.val).injOnly = true ∧ SameButEvents s t)
      ∧ (faultClass n.val = 4 → ∃ t, exec (.fcRelease n false) s = .next t ∧ t = s)
      ∧ (faultClass n.val ≠ 4 → x.active = true → ∃ t, exec (.fcRelease n false) s = .next t ∧ (t.src n.val).active = false
        ∧ (t.src n.val).running = 0 ∧ (t.src n.val).recoveries = x.recoveries ∧ (t.src n.val).sticky = x.sticky
        ∧ (∀ m, m ≠ n.val → t.src m = s.src m) ∧ SameButEvents s t)
      ∧ (∃ t, exec (.fcSrcClrRec n) s = .next t ∧ t.src n.val = { x with recoveries := 0 }
        ∧ (∀ m, m ≠ n.val → t.src m = s.src m) ∧ t = { s with fc := t.fc }))
    ∧ (∀ (w : Fin 3) (mask : W32),
      (∃ t, exec (.fcStickyClear w mask 0) s = .next t
        ∧ (∀ i < 32, mask.getLsbD i = true → (t.src (32 * w.val + i)).sticky = false ∧ (t.src (32 * w.val + i)).injOnly = false)
        ∧ (∀ i < 32, mask.getLsbD i = false → t.src (32 * w.val + i) = s.src (32 * w.val + i))
        ∧ (∀ m, (m < 32 * w.val ∨ 32 * w.val + 32 ≤ m) → t.src m = s.src m) ∧ t = { s with fc := t.fc, boot := t.boot })
      ∧ (∀ c : W32, ∃ t, exec (.fcStickyClear w mask c) s = .next t ∧ SameButEvents s t
        ∧ ∀ i < 32, mask.getLsbD i = true → c.getLsbD i = true → (t.src (32 * w.val + i)).sticky = true))
    ∧ (∀ n : Fin 64, ∃ t, exec (.fcLogSel n) s = .next t ∧ t.fc.snapshot = s.fc.log[n.val]? ∧ t.reg 0x8080 = n.val
        ∧ t = { s with regs := t.regs, fc := { s.fc with snapshot := t.fc.snapshot } })
    ∧ (∀ g : Fin 16,
      let x := s.group g.val
      (∀ slot param, portHeld x = false → s.phaseClaims g.val = false → nextClaim x.peQueue = some (slot, param) →
        let v := s.script g.val slot
        let ts := scriptTransfers v (if slot = 3 then some (param % 2 ^ 16) else none)
        ∃ t, exec (.peScriptPlay g) s = .next t
          ∧ t.group g.val = { x with peBusy := true, peSlot := slot, peQueue := x.peQueue.erase (slot, param), peParam := param,
                                     peAt := s.now, peDiv := scriptDiv v, peTransfers := ts }
          ∧ (∀ j, j ≠ g.val → t.group j = s.group j)
          ∧ (slot ≠ 3 ∨ fld param 16 8 = 0 → t.chans = s.chans)
          ∧ (∀ k w, slot = 3 → fld param 16 8 ≠ 0 → s.allSurveys.find? (fun kv => kv.2.task == param / 2 ^ 24) = some (k, w) →
              w.levelMask = true → ∀ c ∈ surveyChans w, (t.chan c).maskedLevel = true)
          ∧ t = { s with groups := t.groups, chans := t.chans,
                         out := .peScript g.val slot (scriptMode3 v) (scriptDiv v) ts :: s.out })
      ∧ (portHeld x = true ∨ s.phaseClaims g.val = true ∨ nextClaim x.peQueue = none → ∃ t, exec (.peScriptPlay g) s = .next t ∧ t = s)
      ∧ (x.peBusy = true →
          (∃ t, exec (.peScriptEnd g) s = .next t ∧ t.now = max s.now (scriptEnd x) ∧ (t.group g.val).peBusy = false
            ∧ (t.group g.val).peLastEnd = time64 t.ptuNow
            ∧ t.rcOf (aPecPlays g.val) = satAdd 32 (s.rcOf (aPecPlays g.val)) 1 ∧ (∀ j, j ≠ g.val → t.group j = s.group j)
            ∧ (x.peSlot ≠ 3 → t = { s with now := t.now, groups := t.groups, rc := t.rc })
            ∧ t = { s with now := t.now, groups := t.groups, rc := t.rc, sites := t.sites, chans := t.chans })
          ∧ (∀ k w, x.peSlot = 3 → fld x.peParam 16 8 ≠ 0 → k < 32 →
            s.allSurveys.find? (fun kv => kv.2.task == x.peParam / 2 ^ 24) = some (k, w) →
            ∃ t, exec (.peScriptEnd g) s = .next t ∧ t.site k = putSurvey (s.site k) { w with
              waiting := w.waiting - 1, settleDue := if w.waiting - 1 = 0 then some (t.now + w.settle * tuPerUs) else none })))
    ∧ (∀ (h : Hdr) (site levels : Nat) (mask : Bool) (dwell channels : Nat) (oFirst oLast : Int) (oStep settle buf par : Nat),
      Accepts s h (.eyeSurvey site levels mask dwell channels oFirst oLast oStep settle buf par) →
      (s.gridFits site channels oFirst oLast oStep = false → s.so.tasks = [] → h.quiet = false →
        ∃ t, exec (.eyeSurvey h site levels mask dwell channels oFirst oLast oStep settle buf par) s = .next t ∧ Completed s t h 3 0
          ∧ SameButOffice s t)
      ∧ (s.gridFits site channels oFirst oLast oStep = true → (s.site site).st ≠ .run → s.so.tasks = [] → h.quiet = false →
        ∃ t, exec (.eyeSurvey h site levels mask dwell channels oFirst oLast oStep settle buf par) s = .next t ∧ Completed s t h 4 0
          ∧ SameButOffice s t)
      ∧ (s.gridFits site channels oFirst oLast oStep = true → (s.site site).st = .run → siteOn s.cv site mST = false →
        (∀ c < 128, channels.testBit c = true → (s.members site).testBit c = true ∧ chanOn s.cv site c mES = true
          ∧ surveyOf (s.site site) c = none) →
        ∃ t, exec (.eyeSurvey h site levels mask dwell channels oFirst oLast oStep settle buf par) s = .next t
          ∧ (t.site site).surveys = (s.site site).surveys ++ [⟨s.so.nextId, levels, mask, dwell, channels, oFirst, oLast, oStep, settle,
              buf, par, 0, oFirst, 0, true, 0, none⟩]
          ∧ (∀ c < 128, channels.testBit c = true → (t.chan c).svCompared = 0 ∧ (t.chan c).svMismatch = 0)
          ∧ (∀ c < 128, channels.testBit c = false → t.chan c = s.chan c)
          ∧ t = { s with so := t.so, rc := t.rc, sites := t.sites, chans := t.chans }))
    ∧ (∀ (site : Fin 32) (v : Survey),
      (∀ u, (s.site site.val).surveys = [v] → v.counting = false → v.waiting = 0 → v.settleDue = some u →
        ∃ t, exec (.surveySettleElapsed site) s = .next t ∧ t.now = max s.now u
          ∧ (t.site site.val).surveys = [{ v with counting := true, settleDue := none }] ∧ t = { s with now := t.now, sites := t.sites })
      ∧ (let s' := if (s.site site.val).st == .run then s.catchUp site.val else s
         (s'.site site.val).surveys = [v] → s'.pointDone v = true → v.offset + (v.oStep : Int) ≤ v.oLast →
         v.points < allPoints v → (∀ c ∈ surveyChans v, (s'.chan c).svMismatch < 2 ^ 32) →
         ∃ t, exec (.surveyPointEnd site) s = .next t
          ∧ (t.site site.val).surveys = [{ v with points := v.points + 1, offset := v.offset + (v.oStep : Int) }]
          ∧ (∀ i < (surveyChans v).length, readLE t.host (v.bufAddr + 8 * (i * allPoints v + v.points)) 8
              = (s'.chan ((surveyChans v).getD i 0)).svCompared % 2 ^ 32 + 2 ^ 32 * (s'.chan ((surveyChans v).getD i 0)).svMismatch)
          ∧ (∀ c ∈ surveyChans v, (t.chan c).svCompared = 0 ∧ (t.chan c).svMismatch = 0)
          ∧ t = { s' with host := t.host, sites := t.sites, chans := t.chans }))

/-- In an office without another task, with no activation of the kind under way, an accepted IMAGE_ACTIVATE of a kind with no
staged image completes with NOT_PERMITTED and changes nothing but the office and the rings. There an accepted IMAGE_STAGE of a
kind, whose container has its length, leaves nothing of the earlier staged image of that kind: what is staged is the new image
where it verifies, and nothing where it does not. After a device reset nothing is staged. (R441, spec/20_boot_security_update.md)
-/
def Obligations.ActivateNeedsAStagedImage : Prop :=
  ∀ s : State,
    (∀ (h : Hdr) (kind : Nat), s.so.tasks = [] → Accepts s h (.imageActivate kind) → s.imageBusy kind = false →
      tget none s.boot.staged kind = none →
      ∃ t, exec (.imageActivate h kind) s = .next t ∧ Completed s t h 4 0 ∧ SameButOffice s t)
    ∧ (∀ (h : Hdr) (kind bytes addr : Nat), s.so.tasks = [] → Accepts s h (.imageStage kind bytes addr) → s.imageBusy kind = false → 832 ≤ bytes →
      sgBytes (hostImage s.host addr) = bytes →
      ∃ t, exec (.imageStage h kind bytes addr) s = .next t
        ∧ tget none t.boot.staged kind
            = (if s.verifies (hostImage s.host addr) kind then some (stagedOf (hostImage s.host addr) addr) else none))
    ∧ (s.boot.thermLatched = false → s.boot.porLow = false →
      ∃ t, exec (.sysResetDevice 0xDE57 true) s = .next t ∧ ∀ kind, tget none t.boot.staged kind = none)

/-- Poisoning a line puts its address at entry 0 of the log and keeps the 255 newest of the entries before it. Writing a line anew
leaves the log as it is. In READY a write of MC_POISON_IDX by the PF sets the index to its low 8 bits; with the index k the two
halves of MC_POISON_ADDR read the address of entry k with VALID (bit 63) set, and read with VALID clear where the entry is empty.
(R353, spec/15_pattern_memory_controller.md) -/
def Obligations.PoisonLogKeepsNewestFirst : Prop :=
  ∀ s : State,
    (∀ l, (s.poison l).mem.poisonLog = l :: s.mem.poisonLog.take 255)
    ∧ (∀ l d, (s.writeLine l d).mem.poisonLog = s.mem.poisonLog)
    ∧ (∀ v : BitVec 64, s.boot.stage = 5 → s.boot.porLow = false →
        ∃ t, exec (.registerWrite 0 0x5074 4 v) s = .next t ∧ t.reg 0x5074 = v.toNat % 256 ∧ t.mem = s.mem)
    ∧ (∀ l, s.mem.poisonLog[s.reg 0x5074 % 256]? = some l → l < 2 ^ 40 →
        (s.readAct 0x5078).2 = l % 2 ^ 32 ∧ (s.readAct 0x507C).2 = l / 2 ^ 32 + 2 ^ 31)
    ∧ (s.mem.poisonLog[s.reg 0x5074 % 256]? = none → (s.readAct 0x507C).2.testBit 31 = false)
end

