-- ==== Sys2Proof/Laws/Bytes.lean ====
section
/-! SUPPORT. Numbers and the bytes that spell them, and franks: a frame that has its frank set carries a good one, and no other value in
the frank's place is good. -/

namespace Sys2Proof.Machine

@[simp] theorem length_bytesOf (n v : Nat) : (bytesOf n v).length = n := by
  induction n generalizing v with
  | zero => rfl
  | succ n ih => simp [bytesOf, ih]

/-- A number comes back from its bytes, truncated to them. -/
theorem ofBytes_bytesOf (n v : Nat) : ofBytes (bytesOf n v) = v % 256 ^ n := by
  induction n generalizing v with
  | zero => simp [bytesOf, ofBytes, Nat.mod_one]
  | succ n ih =>
    rw [bytesOf, ofBytes, ih, BitVec.toNat_ofNat, show (256 : Nat) ^ (n + 1) = 256 * 256 ^ n by rw [Nat.pow_succ]; ring, Nat.mod_mul]

theorem ofBytes_lt (bs : List Byte) : ofBytes bs < 256 ^ bs.length := by
  induction bs with
  | nil => simp [ofBytes]
  | cons b bs ih =>
    have hb := b.isLt
    simp only [ofBytes, List.length_cons, Nat.pow_succ]
    omega

/-- Bytes come back from the number they spell. -/
theorem bytesOf_ofBytes (bs : List Byte) : bytesOf bs.length (ofBytes bs) = bs := by
  induction bs with
  | nil => rfl
  | cons b bs ih =>
    have hb : b.toNat < 256 := b.isLt
    have h1 : BitVec.ofNat 8 (b.toNat + 256 * ofBytes bs) = b := by
      apply BitVec.eq_of_toNat_eq
      rw [BitVec.toNat_ofNat]
      omega
    have h2 : (b.toNat + 256 * ofBytes bs) / 256 = ofBytes bs := by omega
    rw [List.length_cons, bytesOf, ofBytes, h1, h2, ih]

/-- The low bytes of a number do not depend on what stands above them. -/
theorem bytesOf_mod {n m : Nat} (v : Nat) (h : n ≤ m) : bytesOf n (v % 256 ^ m) = bytesOf n v := by
  induction n generalizing v m with
  | zero => rfl
  | succ n ih =>
    obtain ⟨m, rfl⟩ : ∃ k, m = k + 1 := ⟨m - 1, by omega⟩
    have hp : (256 : Nat) ^ (m + 1) = 256 * 256 ^ m := by rw [Nat.pow_succ]; ring
    have h1 : BitVec.ofNat 8 (v % 256 ^ (m + 1)) = BitVec.ofNat 8 v := by
      apply BitVec.eq_of_toNat_eq
      rw [BitVec.toNat_ofNat, BitVec.toNat_ofNat, hp, Nat.mod_mul_right_mod]
    have h2 : v % 256 ^ (m + 1) / 256 = v / 256 % 256 ^ m := by rw [hp, Nat.mod_mul_right_div_self]
    rw [bytesOf, bytesOf, h1, h2, ih (v / 256) (by omega)]

theorem crcRun_append (c : BitVec 32) (as bs : List Byte) : crcRun c (as ++ bs) = crcRun (crcRun c as) bs := List.foldl_append

/-- The frank covers bytes 0 to 251 only (R280). -/
theorem frFrank_mod (f x : Nat) : frFrank (f % 2 ^ 2016 + 2 ^ 2016 * x) = frFrank f := by
  have hp : (2 : Nat) ^ 2016 = 256 ^ 252 := by rw [show (256 : Nat) = 2 ^ 8 by rfl, ← Nat.pow_mul]
  have h : bytesOf 252 (f % 2 ^ 2016 + 2 ^ 2016 * x) = bytesOf 252 f := by
    rw [← bytesOf_mod (f % 2 ^ 2016 + 2 ^ 2016 * x) (Nat.le_refl 252), ← bytesOf_mod f (Nat.le_refl 252), hp,
      Nat.add_mul_mod_self_left, Nat.mod_mod]
  rw [frFrank, h, frFrank]

theorem frank_field (f x : Nat) (hx : x < 2 ^ 32) : fld (f % 2 ^ 2016 + 2 ^ 2016 * x) 2016 32 = x := by
  have h : f % 2 ^ 2016 < 2 ^ 2016 := Nat.mod_lt _ (Nat.two_pow_pos 2016)
  rw [fld, Nat.shiftRight_eq_div_pow, Nat.add_mul_div_left _ _ (Nat.two_pow_pos 2016), Nat.div_eq_of_lt h, Nat.zero_add,
    Nat.mod_eq_of_lt hx]

theorem frFrank_lt (f : Nat) : frFrank f < 2 ^ 32 := (crc32c (bytesOf 252 f)).isLt

/-- Whether a frame's frank is good depends on what stands in its place alone (R280). -/
theorem frankGood_iff (f x : Nat) (hx : x < 2 ^ 32) : frankGood (f % 2 ^ 2016 + 2 ^ 2016 * x) = decide (x = frFrank f) := by
  rw [frankGood, frank_field f x hx, frFrank_mod]
  by_cases h : x = frFrank f <;> simp [h]

theorem frankGood_sealFrame (f : Nat) : frankGood (sealFrame f) = true := by
  rw [sealFrame, frankGood_iff f _ (frFrank_lt f)]
  simp

theorem frame_lt (f x : Nat) (hx : x < 2 ^ 32) : f % 2 ^ 2016 + 2 ^ 2016 * x < 2 ^ 2048 := by
  have h1 : f % 2 ^ 2016 < 2 ^ 2016 := Nat.mod_lt _ (Nat.two_pow_pos 2016)
  have h2 : (2 : Nat) ^ 2048 = 2 ^ 2016 * 2 ^ 32 := by rw [← Nat.pow_add]
  have h3 : 2 ^ 2016 * x + 2 ^ 2016 ≤ 2 ^ 2016 * 2 ^ 32 := by
    rw [← Nat.mul_succ]
    exact Nat.mul_le_mul_left _ hx
  rw [h2]
  omega

theorem sealFrame_lt (f : Nat) : sealFrame f < 2 ^ 2048 := frame_lt f _ (frFrank_lt f)

/-- Sealing a frame leaves every field below its frank. -/
theorem fld_sealFrame (f lo w : Nat) (h : lo + w ≤ 2016) : fld (sealFrame f) lo w = fld f lo w := by
  apply Nat.eq_of_testBit_eq
  intro i
  simp only [fld, Nat.testBit_mod_two_pow, Nat.testBit_shiftRight]
  by_cases hi : i < w
  · rw [sealFrame, Nat.add_comm, Nat.testBit_two_pow_mul_add _ (Nat.mod_lt _ (Nat.two_pow_pos 2016)), if_pos (by omega),
      Nat.testBit_mod_two_pow, decide_eq_true (by omega : lo + i < 2016), Bool.true_and]
  · simp [hi]

theorem testBit_sealFrame (f i : Nat) (h : i < 2016) : (sealFrame f).testBit i = f.testBit i := by
  rw [sealFrame, Nat.add_comm, Nat.testBit_two_pow_mul_add _ (Nat.mod_lt _ (Nat.two_pow_pos 2016)), if_pos h,
    Nat.testBit_mod_two_pow, decide_eq_true h, Bool.true_and]

end Sys2Proof.Machine
end

