-- ==== Sys2Proof/Laws/Block.lean ====
section
/-! SUPPORT. A receiver recovers what a lane sent: descrambling undoes scrambling, and a sealed control block's check holds. -/

namespace Sys2Proof.Machine

theorem scramble_lt (n st x : Nat) : (scramble n st x).2 < 2 ^ n := by
  induction n generalizing st x with
  | zero => exact Nat.one_pos
  | succ n ih =>
    have h := ih ((2 * st + b2n (x.testBit 0 ^^ st.testBit 38 ^^ st.testBit 57)) % 2 ^ 58) (x / 2)
    have hb : b2n (x.testBit 0 ^^ st.testBit 38 ^^ st.testBit 57) < 2 := by
      cases (x.testBit 0 ^^ st.testBit 38 ^^ st.testBit 57) <;> decide
    simp only [scramble]
    omega

/-- The receiver's scrambler follows the sender's, and what it gives are the sent bits. -/
theorem descramble_scramble (n st x : Nat) :
    descramble n st (scramble n st x).2 = ((scramble n st x).1, x % 2 ^ n) := by
  induction n generalizing st x with
  | zero => simp [scramble, descramble, Nat.mod_one]
  | succ n ih =>
    have hm : x % 2 = b2n (x.testBit 0) := by
      rw [Nat.testBit_zero]
      rcases Nat.mod_two_eq_zero_or_one x with h | h <;> simp [h, b2n]
    simp only [scramble, descramble]
    generalize hb : (x.testBit 0 ^^ st.testBit 38 ^^ st.testBit 57) = b
    have h2 : (b2n b + 2 * (scramble n ((2 * st + b2n b) % 2 ^ 58) (x / 2)).2) % 2 = b2n b := by
      have : b2n b < 2 := by cases b <;> decide
      omega
    have h3 : (b2n b + 2 * (scramble n ((2 * st + b2n b) % 2 ^ 58) (x / 2)).2) / 2
        = (scramble n ((2 * st + b2n b) % 2 ^ 58) (x / 2)).2 := by
      have : b2n b < 2 := by cases b <;> decide
      omega
    have h4 : (b2n b + 2 * (scramble n ((2 * st + b2n b) % 2 ^ 58) (x / 2)).2).testBit 0 = b := by
      rw [Nat.testBit_zero, h2]
      cases b <;> rfl
    rw [h2, h3, h4, ih]
    have h5 : (b ^^ st.testBit 38 ^^ st.testBit 57) = x.testBit 0 := by
      rw [← hb]
      cases x.testBit 0 <;> cases st.testBit 38 <;> cases st.testBit 57 <;> rfl
    simp only [h5, Prod.mk.injEq, true_and]
    rw [Nat.pow_succ', Nat.mod_mul, hm]

theorem crc8Byte_lt (c b : Nat) (hc : c < 2 ^ 8) (hb : b < 2 ^ 8) : crc8Byte c b < 2 ^ 8 := by
  have step : ∀ x : Nat, x < 2 ^ 8 → (if x.testBit 7 then (2 * x % 256) ^^^ 0x07 else 2 * x) < 2 ^ 8 := by
    intro x hx
    split
    · exact Nat.xor_lt_two_pow (Nat.mod_lt _ (by decide)) (by decide)
    · next h =>
      rw [Nat.testBit_eq_decide_div_mod_eq, decide_eq_true_eq] at h
      omega
  have all : ∀ (l : List Nat) (x : Nat), x < 2 ^ 8 → l.foldl (fun c _ => if c.testBit 7 then (2 * c % 256) ^^^ 0x07 else 2 * c) x < 2 ^ 8 := by
    intro l
    induction l with
    | nil => exact fun _ h => h
    | cons _ l ih => exact fun x h => ih _ (step x h)
  exact all _ _ (Nat.xor_lt_two_pow hc hb)

theorem crc8_lt (bs : List Byte) : crc8 bs < 2 ^ 8 := by
  have all : ∀ (l : List Byte) c, c < 2 ^ 8 → l.foldl (fun c b => crc8Byte c b.toNat) c < 2 ^ 8 := by
    intro l
    induction l with
    | nil => exact fun _ h => h
    | cons b l ih => exact fun c h => ih _ (crc8Byte_lt c _ h b.isLt)
  exact all bs 0 (by decide)

/-- A control block as it is sent passes the receiver's check. -/
theorem ctlGood_sealCtl (v : Nat) : ctlGood (sealCtl v) = true := by
  have hc : ctlCheck v < 2 ^ 8 := crc8_lt _
  have hm : v % 2 ^ 56 < 2 ^ 56 := Nat.mod_lt _ (by decide)
  have hs : ctlCheck (sealCtl v) = ctlCheck v := by
    unfold ctlCheck
    rw [← bytesOf_mod _ (Nat.le_refl 6), ← bytesOf_mod (v / 256) (Nat.le_refl 6)]
    congr 2
    unfold sealCtl
    omega
  unfold ctlGood
  rw [hs, show sealCtl v / 2 ^ 56 % 256 = ctlCheck v by unfold sealCtl; omega, beq_self_eq_true]

end Sys2Proof.Machine
end

