-- ==== Sys2Proof/Laws/Tab.lean ====
section
/-! SUPPORT. Sparse tables: a read after a write at the same key gives the value written, a write leaves every other key alone, and the
canonical form is kept. -/

namespace Sys2Proof.Machine

theorem tget_terase_same {α : Type} (d : α) (t : Tab α) (k : Nat) : tget d (terase t k) k = d := by
  induction t with
  | nil => rfl
  | cons e t ih =>
    obtain ⟨k', v⟩ := e
    by_cases h : k' = k
    · simp [terase, h, ih]
    · simp [terase, h, tget, ih]

theorem tget_terase_other {α : Type} (d : α) (t : Tab α) {k j : Nat} (hj : j ≠ k) : tget d (terase t k) j = tget d t j := by
  induction t with
  | nil => rfl
  | cons e t ih =>
    obtain ⟨k', v⟩ := e
    by_cases h : k' = k
    · subst h; simp [terase, tget, ih, Ne.symm hj]
    · simp [terase, h, tget, ih]

theorem tget_tput_same {α : Type} (d : α) (t : Tab α) (k : Nat) (v : α) (h : ∀ e ∈ t, e.1 ≠ k) : tget d (tput t k v) k = v := by
  induction t with
  | nil => simp [tput, tget]
  | cons e t ih =>
    obtain ⟨k', w⟩ := e
    have hk : k' ≠ k := h (k', w) (by simp)
    by_cases hl : k < k'
    · simp [tput, hl, tget]
    · simp [tput, hl, tget, hk]
      exact ih (fun e he => h e (by simp [he]))

theorem tget_tput_other {α : Type} (d : α) (t : Tab α) (k : Nat) (v : α) {j : Nat} (hj : j ≠ k) :
    tget d (tput t k v) j = tget d t j := by
  induction t with
  | nil => simp [tput, tget, Ne.symm hj]
  | cons e t ih =>
    obtain ⟨k', w⟩ := e
    by_cases hl : k < k'
    · simp [tput, hl, tget, Ne.symm hj]
    · simp [tput, hl, tget, ih]

theorem terase_keys {α : Type} (t : Tab α) (k : Nat) : ∀ e ∈ terase t k, e.1 ≠ k := by
  induction t with
  | nil => simp [terase]
  | cons e t ih =>
    obtain ⟨k', v⟩ := e
    by_cases h : k' = k
    · simpa [terase, h] using ih
    · intro e he
      simp only [terase, h, if_false, List.mem_cons] at he
      rcases he with rfl | he
      · exact h
      · exact ih e he

/-- A key reads as it was set. -/
@[simp] theorem tget_tset_same {α : Type} [DecidableEq α] (d : α) (t : Tab α) (k : Nat) (v : α) : tget d (tset d t k v) k = v := by
  unfold tset
  split
  · next h => simp [tget_terase_same, h]
  · exact tget_tput_same d _ k v (terase_keys t k)

/-- Every other key reads as before, whatever it reads as where it is unlisted. -/
theorem tget_tset_ne {α : Type} [DecidableEq α] (d e : α) (t : Tab α) {k j : Nat} (v : α) (hj : j ≠ k) :
    tget e (tset d t k v) j = tget e t j := by
  unfold tset
  split
  · exact tget_terase_other e t hj
  · rw [tget_tput_other e _ k v hj, tget_terase_other e t hj]

theorem tget_tset_other {α : Type} [DecidableEq α] (d : α) (t : Tab α) {k j : Nat} (v : α) (hj : j ≠ k) :
    tget d (tset d t k v) j = tget d t j := tget_tset_ne d d t v hj

theorem tget_tset {α : Type} [DecidableEq α] (d : α) (t : Tab α) (k j : Nat) (v : α) :
    tget d (tset d t k v) j = if j = k then v else tget d t j := by
  by_cases h : j = k
  · simp [h]
  · simp [h, tget_tset_other d t v h]

/-! ### The canonical form -/

theorem keysAbove_terase {α : Type} {b : Nat} {t : Tab α} (k : Nat) (h : keysAbove b t = true) : keysAbove b (terase t k) = true := by
  induction t with
  | nil => rfl
  | cons e t ih =>
    obtain ⟨k', v⟩ := e
    simp only [keysAbove, List.all_cons, Bool.and_eq_true] at h ih ⊢
    by_cases hk : k' = k
    · simpa [terase, hk] using ih h.2
    · simp only [terase, hk, if_false, List.all_cons, Bool.and_eq_true]
      exact ⟨h.1, ih h.2⟩

theorem keysAbove_tput {α : Type} {b : Nat} {t : Tab α} {k : Nat} (v : α) (hb : b < k) (h : keysAbove b t = true) :
    keysAbove b (tput t k v) = true := by
  induction t with
  | nil => simp [tput, keysAbove, hb]
  | cons e t ih =>
    obtain ⟨k', w⟩ := e
    simp only [keysAbove, List.all_cons, Bool.and_eq_true] at h ih ⊢
    by_cases hk : k < k'
    · simp only [tput, hk, if_true, List.all_cons, Bool.and_eq_true]
      exact ⟨by simpa using hb, h.1, h.2⟩
    · simp only [tput, hk, if_false, List.all_cons, Bool.and_eq_true]
      exact ⟨h.1, ih h.2⟩

theorem keysAbove_trans {α : Type} {a b : Nat} {t : Tab α} (hab : a < b) (h : keysAbove b t = true) : keysAbove a t = true := by
  simp only [keysAbove, List.all_eq_true, decide_eq_true_eq] at h ⊢
  exact fun e he => Nat.lt_trans hab (h e he)

theorem tabWf_terase {α : Type} [DecidableEq α] (d : Nat → α) {t : Tab α} (k : Nat) (h : tabWf d t = true) :
    tabWf d (terase t k) = true := by
  induction t with
  | nil => rfl
  | cons e t ih =>
    obtain ⟨k', v⟩ := e
    simp only [tabWf, Bool.and_eq_true] at h
    by_cases hk : k' = k
    · simpa [terase, hk] using ih h.2
    · simp only [terase, hk, if_false, tabWf, Bool.and_eq_true]
      exact ⟨⟨keysAbove_terase k h.1.1, h.1.2⟩, ih h.2⟩

theorem tabWf_tput {α : Type} [DecidableEq α] (d : Nat → α) {t : Tab α} {k : Nat} {v : α} (hv : v ≠ d k) (hk : ∀ e ∈ t, e.1 ≠ k)
    (h : tabWf d t = true) : tabWf d (tput t k v) = true := by
  induction t with
  | nil => simp [tput, tabWf, keysAbove, hv]
  | cons e t ih =>
    obtain ⟨k', w⟩ := e
    have hkk : k' ≠ k := hk (k', w) (by simp)
    simp only [tabWf, Bool.and_eq_true] at h
    by_cases hl : k < k'
    · simp only [tput, hl, if_true, tabWf, Bool.and_eq_true]
      refine ⟨⟨?_, by simpa using hv⟩, ⟨h.1, h.2⟩⟩
      have := keysAbove_trans hl h.1.1
      simp only [keysAbove, List.all_cons, Bool.and_eq_true]
      exact ⟨by simpa using hl, this⟩
    · simp only [tput, hl, if_false, tabWf, Bool.and_eq_true]
      exact ⟨⟨keysAbove_tput v (by omega) h.1.1, h.1.2⟩, ih (fun e he => hk e (by simp [he])) h.2⟩

/-- Setting a key keeps the canonical form, where the key's default is what the update removes. -/
theorem tabWf_tset {α : Type} [DecidableEq α] (d : Nat → α) {t : Tab α} (k : Nat) (v : α) (h : tabWf d t = true) :
    tabWf d (tset (d k) t k v) = true := by
  unfold tset
  split
  · exact tabWf_terase d k h
  · next hv => exact tabWf_tput d hv (terase_keys t k) (tabWf_terase d k h)

end Sys2Proof.Machine
end

