-- ==== Sys2Proof/Laws/Memory.lean ====
section
/-! SUPPORT. Host memory: a read gives what was last written there, a write leaves every other byte alone, and every operation keeps the
canonical form. -/

namespace Sys2Proof.Machine

@[simp] theorem readByte_writeByte_same (m : List Host.Cell) (a : Nat) (b : Byte) : readByte (writeByte m a b) a = b := by
  simp [readByte, writeByte]

theorem readByte_writeByte_other (m : List Host.Cell) {a c : Nat} (b : Byte) (h : c ≠ a) :
    readByte (writeByte m a b) c = readByte m c := tget_tset_other _ m b h

/-- Bytes outside the `n` written ones read as before. -/
theorem readByte_writeLE_outside (m : List Host.Cell) (a n v c : Nat) (h : c < a ∨ a + n ≤ c) :
    readByte (writeLE m a n v) c = readByte m c := by
  induction n generalizing m a v with
  | zero => rfl
  | succ n ih =>
    rw [writeLE, ih _ _ _ (by omega), readByte_writeByte_other m _ (by omega)]

/-- A written number reads back, truncated to its bytes. -/
theorem readLE_writeLE_same (m : List Host.Cell) (a n v : Nat) : readLE (writeLE m a n v) a n = v % 256 ^ n := by
  induction n generalizing m a v with
  | zero => simp [readLE, Nat.mod_one]
  | succ n ih =>
    rw [readLE, writeLE, ih, readByte_writeLE_outside _ _ _ _ _ (by omega)]
    simp only [readByte_writeByte_same, BitVec.toNat_ofNat]
    rw [show (256 : Nat) ^ (n + 1) = 256 * 256 ^ n by rw [Nat.pow_succ]; ring, Nat.mod_mul]

/-- A number whose bytes lie outside the written ones reads as before. -/
theorem readLE_writeLE_outside (m : List Host.Cell) (a n v b k : Nat) (h : b + k ≤ a ∨ a + n ≤ b) :
    readLE (writeLE m a n v) b k = readLE m b k := by
  induction k generalizing b with
  | zero => rfl
  | succ k ih => rw [readLE, readLE, ih (b + 1) (by omega), readByte_writeLE_outside _ _ _ _ _ (by omega)]

/-- Bytes outside a written run read as before. -/
theorem readByte_writeBytes_outside (m : List Host.Cell) (a : Nat) (bs : List Byte) (c : Nat) (h : c < a ∨ a + bs.length ≤ c) :
    readByte (writeBytes m a bs) c = readByte m c := by
  induction bs generalizing m a with
  | nil => rfl
  | cons b bs ih =>
    simp only [List.length_cons] at h
    rw [writeBytes, ih _ _ (by omega), readByte_writeByte_other m _ (by omega)]

theorem writeByte_wf {m : List Host.Cell} (a : Nat) (b : Byte) (h : Memory.wf m = true) : Memory.wf (writeByte m a b) = true :=
  tabWf_tset (fun _ => unlistedByte) a b h

theorem writeLE_wf {m : List Host.Cell} (a n v : Nat) (h : Memory.wf m = true) : Memory.wf (writeLE m a n v) = true := by
  induction n generalizing m a v with
  | zero => exact h
  | succ n ih => exact ih _ _ (writeByte_wf _ _ h)

theorem writeBytes_wf {m : List Host.Cell} (a : Nat) (bs : List Byte) (h : Memory.wf m = true) :
    Memory.wf (writeBytes m a bs) = true := by
  induction bs generalizing m a with
  | nil => exact h
  | cons b bs ih => exact ih _ (writeByte_wf _ _ h)

/-- Reset memory lists nothing. -/
theorem reset_host_wf : Memory.wf State.reset.host = true := rfl

end Sys2Proof.Machine
end

