-- ==== Sys2Proof/Laws/State.lean ====
section
/-! SUPPORT. What each update of the state leaves alone, one lemma per field per update, each true by rfl; and what a read of the
updated piece gives. No proof over these updates unfolds a record. -/

namespace Sys2Proof.Machine

/-! ### setReg -/

@[simp] theorem setReg_pending (s : State) (a v : Nat) : (s.setReg a v).pending = s.pending := rfl
@[simp] theorem setReg_now (s : State) (a v : Nat) : (s.setReg a v).now = s.now := rfl
@[simp] theorem setReg_rc (s : State) (a v : Nat) : (s.setReg a v).rc = s.rc := rfl
@[simp] theorem setReg_host (s : State) (a v : Nat) : (s.setReg a v).host = s.host := rfl
@[simp] theorem setReg_hif (s : State) (a v : Nat) : (s.setReg a v).hif = s.hif := rfl
@[simp] theorem setReg_so (s : State) (a v : Nat) : (s.setReg a v).so = s.so := rfl
@[simp] theorem setReg_cfg (s : State) (a v : Nat) : (s.setReg a v).cfg = s.cfg := rfl
@[simp] theorem setReg_mem (s : State) (a v : Nat) : (s.setReg a v).mem = s.mem := rfl
@[simp] theorem setReg_sites (s : State) (a v : Nat) : (s.setReg a v).sites = s.sites := rfl
@[simp] theorem setReg_chans (s : State) (a v : Nat) : (s.setReg a v).chans = s.chans := rfl
@[simp] theorem setReg_slots (s : State) (a v : Nat) : (s.setReg a v).slots = s.slots := rfl
@[simp] theorem setReg_groups (s : State) (a v : Nat) : (s.setReg a v).groups = s.groups := rfl
@[simp] theorem setReg_acq (s : State) (a v : Nat) : (s.setReg a v).acq = s.acq := rfl
@[simp] theorem setReg_trg (s : State) (a v : Nat) : (s.setReg a v).trg = s.trg := rfl
@[simp] theorem setReg_csp (s : State) (a v : Nat) : (s.setReg a v).csp = s.csp := rfl
@[simp] theorem setReg_ports (s : State) (a v : Nat) : (s.setReg a v).ports = s.ports := rfl
@[simp] theorem setReg_tree (s : State) (a v : Nat) : (s.setReg a v).tree = s.tree := rfl
@[simp] theorem setReg_ptu (s : State) (a v : Nat) : (s.setReg a v).ptu = s.ptu := rfl
@[simp] theorem setReg_cal (s : State) (a v : Nat) : (s.setReg a v).cal = s.cal := rfl
@[simp] theorem setReg_adc (s : State) (a v : Nat) : (s.setReg a v).adc = s.adc := rfl
@[simp] theorem setReg_clerk (s : State) (a v : Nat) : (s.setReg a v).clerk = s.clerk := rfl
@[simp] theorem setReg_fc (s : State) (a v : Nat) : (s.setReg a v).fc = s.fc := rfl
@[simp] theorem setReg_boot (s : State) (a v : Nat) : (s.setReg a v).boot = s.boot := rfl
@[simp] theorem setReg_timers (s : State) (a v : Nat) : (s.setReg a v).timers = s.timers := rfl
@[simp] theorem setReg_freeCount (s : State) (a v : Nat) : (s.setReg a v).freeCount = s.freeCount := rfl
@[simp] theorem setReg_out (s : State) (a v : Nat) : (s.setReg a v).out = s.out := rfl

/-! ### setReg64 -/

@[simp] theorem setReg64_pending (s : State) (a v : Nat) : (s.setReg64 a v).pending = s.pending := rfl
@[simp] theorem setReg64_now (s : State) (a v : Nat) : (s.setReg64 a v).now = s.now := rfl
@[simp] theorem setReg64_rc (s : State) (a v : Nat) : (s.setReg64 a v).rc = s.rc := rfl
@[simp] theorem setReg64_host (s : State) (a v : Nat) : (s.setReg64 a v).host = s.host := rfl
@[simp] theorem setReg64_hif (s : State) (a v : Nat) : (s.setReg64 a v).hif = s.hif := rfl
@[simp] theorem setReg64_so (s : State) (a v : Nat) : (s.setReg64 a v).so = s.so := rfl
@[simp] theorem setReg64_cfg (s : State) (a v : Nat) : (s.setReg64 a v).cfg = s.cfg := rfl
@[simp] theorem setReg64_mem (s : State) (a v : Nat) : (s.setReg64 a v).mem = s.mem := rfl
@[simp] theorem setReg64_sites (s : State) (a v : Nat) : (s.setReg64 a v).sites = s.sites := rfl
@[simp] theorem setReg64_chans (s : State) (a v : Nat) : (s.setReg64 a v).chans = s.chans := rfl
@[simp] theorem setReg64_slots (s : State) (a v : Nat) : (s.setReg64 a v).slots = s.slots := rfl
@[simp] theorem setReg64_groups (s : State) (a v : Nat) : (s.setReg64 a v).groups = s.groups := rfl
@[simp] theorem setReg64_acq (s : State) (a v : Nat) : (s.setReg64 a v).acq = s.acq := rfl
@[simp] theorem setReg64_trg (s : State) (a v : Nat) : (s.setReg64 a v).trg = s.trg := rfl
@[simp] theorem setReg64_csp (s : State) (a v : Nat) : (s.setReg64 a v).csp = s.csp := rfl
@[simp] theorem setReg64_ports (s : State) (a v : Nat) : (s.setReg64 a v).ports = s.ports := rfl
@[simp] theorem setReg64_tree (s : State) (a v : Nat) : (s.setReg64 a v).tree = s.tree := rfl
@[simp] theorem setReg64_ptu (s : State) (a v : Nat) : (s.setReg64 a v).ptu = s.ptu := rfl
@[simp] theorem setReg64_cal (s : State) (a v : Nat) : (s.setReg64 a v).cal = s.cal := rfl
@[simp] theorem setReg64_adc (s : State) (a v : Nat) : (s.setReg64 a v).adc = s.adc := rfl
@[simp] theorem setReg64_clerk (s : State) (a v : Nat) : (s.setReg64 a v).clerk = s.clerk := rfl
@[simp] theorem setReg64_fc (s : State) (a v : Nat) : (s.setReg64 a v).fc = s.fc := rfl
@[simp] theorem setReg64_boot (s : State) (a v : Nat) : (s.setReg64 a v).boot = s.boot := rfl
@[simp] theorem setReg64_timers (s : State) (a v : Nat) : (s.setReg64 a v).timers = s.timers := rfl
@[simp] theorem setReg64_freeCount (s : State) (a v : Nat) : (s.setReg64 a v).freeCount = s.freeCount := rfl
@[simp] theorem setReg64_out (s : State) (a v : Nat) : (s.setReg64 a v).out = s.out := rfl

/-! ### setRc -/

@[simp] theorem setRc_pending (s : State) (a v : Nat) : (s.setRc a v).pending = s.pending := rfl
@[simp] theorem setRc_now (s : State) (a v : Nat) : (s.setRc a v).now = s.now := rfl
@[simp] theorem setRc_regs (s : State) (a v : Nat) : (s.setRc a v).regs = s.regs := rfl
@[simp] theorem setRc_host (s : State) (a v : Nat) : (s.setRc a v).host = s.host := rfl
@[simp] theorem setRc_hif (s : State) (a v : Nat) : (s.setRc a v).hif = s.hif := rfl
@[simp] theorem setRc_so (s : State) (a v : Nat) : (s.setRc a v).so = s.so := rfl
@[simp] theorem setRc_cfg (s : State) (a v : Nat) : (s.setRc a v).cfg = s.cfg := rfl
@[simp] theorem setRc_mem (s : State) (a v : Nat) : (s.setRc a v).mem = s.mem := rfl
@[simp] theorem setRc_sites (s : State) (a v : Nat) : (s.setRc a v).sites = s.sites := rfl
@[simp] theorem setRc_chans (s : State) (a v : Nat) : (s.setRc a v).chans = s.chans := rfl
@[simp] theorem setRc_slots (s : State) (a v : Nat) : (s.setRc a v).slots = s.slots := rfl
@[simp] theorem setRc_groups (s : State) (a v : Nat) : (s.setRc a v).groups = s.groups := rfl
@[simp] theorem setRc_acq (s : State) (a v : Nat) : (s.setRc a v).acq = s.acq := rfl
@[simp] theorem setRc_trg (s : State) (a v : Nat) : (s.setRc a v).trg = s.trg := rfl
@[simp] theorem setRc_csp (s : State) (a v : Nat) : (s.setRc a v).csp = s.csp := rfl
@[simp] theorem setRc_ports (s : State) (a v : Nat) : (s.setRc a v).ports = s.ports := rfl
@[simp] theorem setRc_tree (s : State) (a v : Nat) : (s.setRc a v).tree = s.tree := rfl
@[simp] theorem setRc_ptu (s : State) (a v : Nat) : (s.setRc a v).ptu = s.ptu := rfl
@[simp] theorem setRc_cal (s : State) (a v : Nat) : (s.setRc a v).cal = s.cal := rfl
@[simp] theorem setRc_adc (s : State) (a v : Nat) : (s.setRc a v).adc = s.adc := rfl
@[simp] theorem setRc_clerk (s : State) (a v : Nat) : (s.setRc a v).clerk = s.clerk := rfl
@[simp] theorem setRc_fc (s : State) (a v : Nat) : (s.setRc a v).fc = s.fc := rfl
@[simp] theorem setRc_boot (s : State) (a v : Nat) : (s.setRc a v).boot = s.boot := rfl
@[simp] theorem setRc_timers (s : State) (a v : Nat) : (s.setRc a v).timers = s.timers := rfl
@[simp] theorem setRc_freeCount (s : State) (a v : Nat) : (s.setRc a v).freeCount = s.freeCount := rfl
@[simp] theorem setRc_out (s : State) (a v : Nat) : (s.setRc a v).out = s.out := rfl

/-! ### rcAdd -/

@[simp] theorem rcAdd_pending (s : State) (a n : Nat) : (s.rcAdd a n).pending = s.pending := rfl
@[simp] theorem rcAdd_now (s : State) (a n : Nat) : (s.rcAdd a n).now = s.now := rfl
@[simp] theorem rcAdd_regs (s : State) (a n : Nat) : (s.rcAdd a n).regs = s.regs := rfl
@[simp] theorem rcAdd_host (s : State) (a n : Nat) : (s.rcAdd a n).host = s.host := rfl
@[simp] theorem rcAdd_hif (s : State) (a n : Nat) : (s.rcAdd a n).hif = s.hif := rfl
@[simp] theorem rcAdd_so (s : State) (a n : Nat) : (s.rcAdd a n).so = s.so := rfl
@[simp] theorem rcAdd_cfg (s : State) (a n : Nat) : (s.rcAdd a n).cfg = s.cfg := rfl
@[simp] theorem rcAdd_mem (s : State) (a n : Nat) : (s.rcAdd a n).mem = s.mem := rfl
@[simp] theorem rcAdd_sites (s : State) (a n : Nat) : (s.rcAdd a n).sites = s.sites := rfl
@[simp] theorem rcAdd_chans (s : State) (a n : Nat) : (s.rcAdd a n).chans = s.chans := rfl
@[simp] theorem rcAdd_slots (s : State) (a n : Nat) : (s.rcAdd a n).slots = s.slots := rfl
@[simp] theorem rcAdd_groups (s : State) (a n : Nat) : (s.rcAdd a n).groups = s.groups := rfl
@[simp] theorem rcAdd_acq (s : State) (a n : Nat) : (s.rcAdd a n).acq = s.acq := rfl
@[simp] theorem rcAdd_trg (s : State) (a n : Nat) : (s.rcAdd a n).trg = s.trg := rfl
@[simp] theorem rcAdd_csp (s : State) (a n : Nat) : (s.rcAdd a n).csp = s.csp := rfl
@[simp] theorem rcAdd_ports (s : State) (a n : Nat) : (s.rcAdd a n).ports = s.ports := rfl
@[simp] theorem rcAdd_tree (s : State) (a n : Nat) : (s.rcAdd a n).tree = s.tree := rfl
@[simp] theorem rcAdd_ptu (s : State) (a n : Nat) : (s.rcAdd a n).ptu = s.ptu := rfl
@[simp] theorem rcAdd_cal (s : State) (a n : Nat) : (s.rcAdd a n).cal = s.cal := rfl
@[simp] theorem rcAdd_adc (s : State) (a n : Nat) : (s.rcAdd a n).adc = s.adc := rfl
@[simp] theorem rcAdd_clerk (s : State) (a n : Nat) : (s.rcAdd a n).clerk = s.clerk := rfl
@[simp] theorem rcAdd_fc (s : State) (a n : Nat) : (s.rcAdd a n).fc = s.fc := rfl
@[simp] theorem rcAdd_boot (s : State) (a n : Nat) : (s.rcAdd a n).boot = s.boot := rfl
@[simp] theorem rcAdd_timers (s : State) (a n : Nat) : (s.rcAdd a n).timers = s.timers := rfl
@[simp] theorem rcAdd_freeCount (s : State) (a n : Nat) : (s.rcAdd a n).freeCount = s.freeCount := rfl
@[simp] theorem rcAdd_out (s : State) (a n : Nat) : (s.rcAdd a n).out = s.out := rfl

/-! ### rcAddHalf -/

@[simp] theorem rcAddHalf_pending (s : State) (a lo : Nat) : (s.rcAddHalf a lo).pending = s.pending := rfl
@[simp] theorem rcAddHalf_now (s : State) (a lo : Nat) : (s.rcAddHalf a lo).now = s.now := rfl
@[simp] theorem rcAddHalf_regs (s : State) (a lo : Nat) : (s.rcAddHalf a lo).regs = s.regs := rfl
@[simp] theorem rcAddHalf_host (s : State) (a lo : Nat) : (s.rcAddHalf a lo).host = s.host := rfl
@[simp] theorem rcAddHalf_hif (s : State) (a lo : Nat) : (s.rcAddHalf a lo).hif = s.hif := rfl
@[simp] theorem rcAddHalf_so (s : State) (a lo : Nat) : (s.rcAddHalf a lo).so = s.so := rfl
@[simp] theorem rcAddHalf_cfg (s : State) (a lo : Nat) : (s.rcAddHalf a lo).cfg = s.cfg := rfl
@[simp] theorem rcAddHalf_mem (s : State) (a lo : Nat) : (s.rcAddHalf a lo).mem = s.mem := rfl
@[simp] theorem rcAddHalf_sites (s : State) (a lo : Nat) : (s.rcAddHalf a lo).sites = s.sites := rfl
@[simp] theorem rcAddHalf_chans (s : State) (a lo : Nat) : (s.rcAddHalf a lo).chans = s.chans := rfl
@[simp] theorem rcAddHalf_slots (s : State) (a lo : Nat) : (s.rcAddHalf a lo).slots = s.slots := rfl
@[simp] theorem rcAddHalf_groups (s : State) (a lo : Nat) : (s.rcAddHalf a lo).groups = s.groups := rfl
@[simp] theorem rcAddHalf_acq (s : State) (a lo : Nat) : (s.rcAddHalf a lo).acq = s.acq := rfl
@[simp] theorem rcAddHalf_trg (s : State) (a lo : Nat) : (s.rcAddHalf a lo).trg = s.trg := rfl
@[simp] theorem rcAddHalf_csp (s : State) (a lo : Nat) : (s.rcAddHalf a lo).csp = s.csp := rfl
@[simp] theorem rcAddHalf_ports (s : State) (a lo : Nat) : (s.rcAddHalf a lo).ports = s.ports := rfl
@[simp] theorem rcAddHalf_tree (s : State) (a lo : Nat) : (s.rcAddHalf a lo).tree = s.tree := rfl
@[simp] theorem rcAddHalf_ptu (s : State) (a lo : Nat) : (s.rcAddHalf a lo).ptu = s.ptu := rfl
@[simp] theorem rcAddHalf_cal (s : State) (a lo : Nat) : (s.rcAddHalf a lo).cal = s.cal := rfl
@[simp] theorem rcAddHalf_adc (s : State) (a lo : Nat) : (s.rcAddHalf a lo).adc = s.adc := rfl
@[simp] theorem rcAddHalf_clerk (s : State) (a lo : Nat) : (s.rcAddHalf a lo).clerk = s.clerk := rfl
@[simp] theorem rcAddHalf_fc (s : State) (a lo : Nat) : (s.rcAddHalf a lo).fc = s.fc := rfl
@[simp] theorem rcAddHalf_boot (s : State) (a lo : Nat) : (s.rcAddHalf a lo).boot = s.boot := rfl
@[simp] theorem rcAddHalf_timers (s : State) (a lo : Nat) : (s.rcAddHalf a lo).timers = s.timers := rfl
@[simp] theorem rcAddHalf_freeCount (s : State) (a lo : Nat) : (s.rcAddHalf a lo).freeCount = s.freeCount := rfl
@[simp] theorem rcAddHalf_out (s : State) (a lo : Nat) : (s.rcAddHalf a lo).out = s.out := rfl

/-! ### emit -/

@[simp] theorem emit_pending (s : State) (e : Emit) : (s.emit e).pending = s.pending := rfl
@[simp] theorem emit_now (s : State) (e : Emit) : (s.emit e).now = s.now := rfl
@[simp] theorem emit_regs (s : State) (e : Emit) : (s.emit e).regs = s.regs := rfl
@[simp] theorem emit_rc (s : State) (e : Emit) : (s.emit e).rc = s.rc := rfl
@[simp] theorem emit_host (s : State) (e : Emit) : (s.emit e).host = s.host := rfl
@[simp] theorem emit_hif (s : State) (e : Emit) : (s.emit e).hif = s.hif := rfl
@[simp] theorem emit_so (s : State) (e : Emit) : (s.emit e).so = s.so := rfl
@[simp] theorem emit_cfg (s : State) (e : Emit) : (s.emit e).cfg = s.cfg := rfl
@[simp] theorem emit_mem (s : State) (e : Emit) : (s.emit e).mem = s.mem := rfl
@[simp] theorem emit_sites (s : State) (e : Emit) : (s.emit e).sites = s.sites := rfl
@[simp] theorem emit_chans (s : State) (e : Emit) : (s.emit e).chans = s.chans := rfl
@[simp] theorem emit_slots (s : State) (e : Emit) : (s.emit e).slots = s.slots := rfl
@[simp] theorem emit_groups (s : State) (e : Emit) : (s.emit e).groups = s.groups := rfl
@[simp] theorem emit_acq (s : State) (e : Emit) : (s.emit e).acq = s.acq := rfl
@[simp] theorem emit_trg (s : State) (e : Emit) : (s.emit e).trg = s.trg := rfl
@[simp] theorem emit_csp (s : State) (e : Emit) : (s.emit e).csp = s.csp := rfl
@[simp] theorem emit_ports (s : State) (e : Emit) : (s.emit e).ports = s.ports := rfl
@[simp] theorem emit_tree (s : State) (e : Emit) : (s.emit e).tree = s.tree := rfl
@[simp] theorem emit_ptu (s : State) (e : Emit) : (s.emit e).ptu = s.ptu := rfl
@[simp] theorem emit_cal (s : State) (e : Emit) : (s.emit e).cal = s.cal := rfl
@[simp] theorem emit_adc (s : State) (e : Emit) : (s.emit e).adc = s.adc := rfl
@[simp] theorem emit_clerk (s : State) (e : Emit) : (s.emit e).clerk = s.clerk := rfl
@[simp] theorem emit_fc (s : State) (e : Emit) : (s.emit e).fc = s.fc := rfl
@[simp] theorem emit_boot (s : State) (e : Emit) : (s.emit e).boot = s.boot := rfl
@[simp] theorem emit_timers (s : State) (e : Emit) : (s.emit e).timers = s.timers := rfl
@[simp] theorem emit_freeCount (s : State) (e : Emit) : (s.emit e).freeCount = s.freeCount := rfl

/-! ### setSite -/

@[simp] theorem setSite_pending (s : State) (k : Nat) (x : Site) : (s.setSite k x).pending = s.pending := rfl
@[simp] theorem setSite_now (s : State) (k : Nat) (x : Site) : (s.setSite k x).now = s.now := rfl
@[simp] theorem setSite_regs (s : State) (k : Nat) (x : Site) : (s.setSite k x).regs = s.regs := rfl
@[simp] theorem setSite_rc (s : State) (k : Nat) (x : Site) : (s.setSite k x).rc = s.rc := rfl
@[simp] theorem setSite_host (s : State) (k : Nat) (x : Site) : (s.setSite k x).host = s.host := rfl
@[simp] theorem setSite_hif (s : State) (k : Nat) (x : Site) : (s.setSite k x).hif = s.hif := rfl
@[simp] theorem setSite_so (s : State) (k : Nat) (x : Site) : (s.setSite k x).so = s.so := rfl
@[simp] theorem setSite_cfg (s : State) (k : Nat) (x : Site) : (s.setSite k x).cfg = s.cfg := rfl
@[simp] theorem setSite_mem (s : State) (k : Nat) (x : Site) : (s.setSite k x).mem = s.mem := rfl
@[simp] theorem setSite_chans (s : State) (k : Nat) (x : Site) : (s.setSite k x).chans = s.chans := rfl
@[simp] theorem setSite_slots (s : State) (k : Nat) (x : Site) : (s.setSite k x).slots = s.slots := rfl
@[simp] theorem setSite_groups (s : State) (k : Nat) (x : Site) : (s.setSite k x).groups = s.groups := rfl
@[simp] theorem setSite_acq (s : State) (k : Nat) (x : Site) : (s.setSite k x).acq = s.acq := rfl
@[simp] theorem setSite_trg (s : State) (k : Nat) (x : Site) : (s.setSite k x).trg = s.trg := rfl
@[simp] theorem setSite_csp (s : State) (k : Nat) (x : Site) : (s.setSite k x).csp = s.csp := rfl
@[simp] theorem setSite_ports (s : State) (k : Nat) (x : Site) : (s.setSite k x).ports = s.ports := rfl
@[simp] theorem setSite_tree (s : State) (k : Nat) (x : Site) : (s.setSite k x).tree = s.tree := rfl
@[simp] theorem setSite_ptu (s : State) (k : Nat) (x : Site) : (s.setSite k x).ptu = s.ptu := rfl
@[simp] theorem setSite_cal (s : State) (k : Nat) (x : Site) : (s.setSite k x).cal = s.cal := rfl
@[simp] theorem setSite_adc (s : State) (k : Nat) (x : Site) : (s.setSite k x).adc = s.adc := rfl
@[simp] theorem setSite_clerk (s : State) (k : Nat) (x : Site) : (s.setSite k x).clerk = s.clerk := rfl
@[simp] theorem setSite_fc (s : State) (k : Nat) (x : Site) : (s.setSite k x).fc = s.fc := rfl
@[simp] theorem setSite_boot (s : State) (k : Nat) (x : Site) : (s.setSite k x).boot = s.boot := rfl
@[simp] theorem setSite_timers (s : State) (k : Nat) (x : Site) : (s.setSite k x).timers = s.timers := rfl
@[simp] theorem setSite_freeCount (s : State) (k : Nat) (x : Site) : (s.setSite k x).freeCount = s.freeCount := rfl
@[simp] theorem setSite_out (s : State) (k : Nat) (x : Site) : (s.setSite k x).out = s.out := rfl

/-! ### setChan -/

@[simp] theorem setChan_pending (s : State) (c : Nat) (x : Chan) : (s.setChan c x).pending = s.pending := rfl
@[simp] theorem setChan_now (s : State) (c : Nat) (x : Chan) : (s.setChan c x).now = s.now := rfl
@[simp] theorem setChan_regs (s : State) (c : Nat) (x : Chan) : (s.setChan c x).regs = s.regs := rfl
@[simp] theorem setChan_rc (s : State) (c : Nat) (x : Chan) : (s.setChan c x).rc = s.rc := rfl
@[simp] theorem setChan_host (s : State) (c : Nat) (x : Chan) : (s.setChan c x).host = s.host := rfl
@[simp] theorem setChan_hif (s : State) (c : Nat) (x : Chan) : (s.setChan c x).hif = s.hif := rfl
@[simp] theorem setChan_so (s : State) (c : Nat) (x : Chan) : (s.setChan c x).so = s.so := rfl
@[simp] theorem setChan_cfg (s : State) (c : Nat) (x : Chan) : (s.setChan c x).cfg = s.cfg := rfl
@[simp] theorem setChan_mem (s : State) (c : Nat) (x : Chan) : (s.setChan c x).mem = s.mem := rfl
@[simp] theorem setChan_sites (s : State) (c : Nat) (x : Chan) : (s.setChan c x).sites = s.sites := rfl
@[simp] theorem setChan_slots (s : State) (c : Nat) (x : Chan) : (s.setChan c x).slots = s.slots := rfl
@[simp] theorem setChan_groups (s : State) (c : Nat) (x : Chan) : (s.setChan c x).groups = s.groups := rfl
@[simp] theorem setChan_acq (s : State) (c : Nat) (x : Chan) : (s.setChan c x).acq = s.acq := rfl
@[simp] theorem setChan_trg (s : State) (c : Nat) (x : Chan) : (s.setChan c x).trg = s.trg := rfl
@[simp] theorem setChan_csp (s : State) (c : Nat) (x : Chan) : (s.setChan c x).csp = s.csp := rfl
@[simp] theorem setChan_ports (s : State) (c : Nat) (x : Chan) : (s.setChan c x).ports = s.ports := rfl
@[simp] theorem setChan_tree (s : State) (c : Nat) (x : Chan) : (s.setChan c x).tree = s.tree := rfl
@[simp] theorem setChan_ptu (s : State) (c : Nat) (x : Chan) : (s.setChan c x).ptu = s.ptu := rfl
@[simp] theorem setChan_cal (s : State) (c : Nat) (x : Chan) : (s.setChan c x).cal = s.cal := rfl
@[simp] theorem setChan_adc (s : State) (c : Nat) (x : Chan) : (s.setChan c x).adc = s.adc := rfl
@[simp] theorem setChan_clerk (s : State) (c : Nat) (x : Chan) : (s.setChan c x).clerk = s.clerk := rfl
@[simp] theorem setChan_fc (s : State) (c : Nat) (x : Chan) : (s.setChan c x).fc = s.fc := rfl
@[simp] theorem setChan_boot (s : State) (c : Nat) (x : Chan) : (s.setChan c x).boot = s.boot := rfl
@[simp] theorem setChan_timers (s : State) (c : Nat) (x : Chan) : (s.setChan c x).timers = s.timers := rfl
@[simp] theorem setChan_freeCount (s : State) (c : Nat) (x : Chan) : (s.setChan c x).freeCount = s.freeCount := rfl
@[simp] theorem setChan_out (s : State) (c : Nat) (x : Chan) : (s.setChan c x).out = s.out := rfl

/-! ### setSlot -/

@[simp] theorem setSlot_pending (s : State) (k : Nat) (x : Slot) : (s.setSlot k x).pending = s.pending := rfl
@[simp] theorem setSlot_now (s : State) (k : Nat) (x : Slot) : (s.setSlot k x).now = s.now := rfl
@[simp] theorem setSlot_regs (s : State) (k : Nat) (x : Slot) : (s.setSlot k x).regs = s.regs := rfl
@[simp] theorem setSlot_rc (s : State) (k : Nat) (x : Slot) : (s.setSlot k x).rc = s.rc := rfl
@[simp] theorem setSlot_host (s : State) (k : Nat) (x : Slot) : (s.setSlot k x).host = s.host := rfl
@[simp] theorem setSlot_hif (s : State) (k : Nat) (x : Slot) : (s.setSlot k x).hif = s.hif := rfl
@[simp] theorem setSlot_so (s : State) (k : Nat) (x : Slot) : (s.setSlot k x).so = s.so := rfl
@[simp] theorem setSlot_cfg (s : State) (k : Nat) (x : Slot) : (s.setSlot k x).cfg = s.cfg := rfl
@[simp] theorem setSlot_mem (s : State) (k : Nat) (x : Slot) : (s.setSlot k x).mem = s.mem := rfl
@[simp] theorem setSlot_sites (s : State) (k : Nat) (x : Slot) : (s.setSlot k x).sites = s.sites := rfl
@[simp] theorem setSlot_chans (s : State) (k : Nat) (x : Slot) : (s.setSlot k x).chans = s.chans := rfl
@[simp] theorem setSlot_groups (s : State) (k : Nat) (x : Slot) : (s.setSlot k x).groups = s.groups := rfl
@[simp] theorem setSlot_acq (s : State) (k : Nat) (x : Slot) : (s.setSlot k x).acq = s.acq := rfl
@[simp] theorem setSlot_trg (s : State) (k : Nat) (x : Slot) : (s.setSlot k x).trg = s.trg := rfl
@[simp] theorem setSlot_csp (s : State) (k : Nat) (x : Slot) : (s.setSlot k x).csp = s.csp := rfl
@[simp] theorem setSlot_ports (s : State) (k : Nat) (x : Slot) : (s.setSlot k x).ports = s.ports := rfl
@[simp] theorem setSlot_tree (s : State) (k : Nat) (x : Slot) : (s.setSlot k x).tree = s.tree := rfl
@[simp] theorem setSlot_ptu (s : State) (k : Nat) (x : Slot) : (s.setSlot k x).ptu = s.ptu := rfl
@[simp] theorem setSlot_cal (s : State) (k : Nat) (x : Slot) : (s.setSlot k x).cal = s.cal := rfl
@[simp] theorem setSlot_adc (s : State) (k : Nat) (x : Slot) : (s.setSlot k x).adc = s.adc := rfl
@[simp] theorem setSlot_clerk (s : State) (k : Nat) (x : Slot) : (s.setSlot k x).clerk = s.clerk := rfl
@[simp] theorem setSlot_fc (s : State) (k : Nat) (x : Slot) : (s.setSlot k x).fc = s.fc := rfl
@[simp] theorem setSlot_boot (s : State) (k : Nat) (x : Slot) : (s.setSlot k x).boot = s.boot := rfl
@[simp] theorem setSlot_timers (s : State) (k : Nat) (x : Slot) : (s.setSlot k x).timers = s.timers := rfl
@[simp] theorem setSlot_freeCount (s : State) (k : Nat) (x : Slot) : (s.setSlot k x).freeCount = s.freeCount := rfl
@[simp] theorem setSlot_out (s : State) (k : Nat) (x : Slot) : (s.setSlot k x).out = s.out := rfl

/-! ### setGroup -/

@[simp] theorem setGroup_pending (s : State) (g : Nat) (x : Group) : (s.setGroup g x).pending = s.pending := rfl
@[simp] theorem setGroup_now (s : State) (g : Nat) (x : Group) : (s.setGroup g x).now = s.now := rfl
@[simp] theorem setGroup_regs (s : State) (g : Nat) (x : Group) : (s.setGroup g x).regs = s.regs := rfl
@[simp] theorem setGroup_rc (s : State) (g : Nat) (x : Group) : (s.setGroup g x).rc = s.rc := rfl
@[simp] theorem setGroup_host (s : State) (g : Nat) (x : Group) : (s.setGroup g x).host = s.host := rfl
@[simp] theorem setGroup_hif (s : State) (g : Nat) (x : Group) : (s.setGroup g x).hif = s.hif := rfl
@[simp] theorem setGroup_so (s : State) (g : Nat) (x : Group) : (s.setGroup g x).so = s.so := rfl
@[simp] theorem setGroup_cfg (s : State) (g : Nat) (x : Group) : (s.setGroup g x).cfg = s.cfg := rfl
@[simp] theorem setGroup_mem (s : State) (g : Nat) (x : Group) : (s.setGroup g x).mem = s.mem := rfl
@[simp] theorem setGroup_sites (s : State) (g : Nat) (x : Group) : (s.setGroup g x).sites = s.sites := rfl
@[simp] theorem setGroup_chans (s : State) (g : Nat) (x : Group) : (s.setGroup g x).chans = s.chans := rfl
@[simp] theorem setGroup_slots (s : State) (g : Nat) (x : Group) : (s.setGroup g x).slots = s.slots := rfl
@[simp] theorem setGroup_acq (s : State) (g : Nat) (x : Group) : (s.setGroup g x).acq = s.acq := rfl
@[simp] theorem setGroup_trg (s : State) (g : Nat) (x : Group) : (s.setGroup g x).trg = s.trg := rfl
@[simp] theorem setGroup_csp (s : State) (g : Nat) (x : Group) : (s.setGroup g x).csp = s.csp := rfl
@[simp] theorem setGroup_ports (s : State) (g : Nat) (x : Group) : (s.setGroup g x).ports = s.ports := rfl
@[simp] theorem setGroup_tree (s : State) (g : Nat) (x : Group) : (s.setGroup g x).tree = s.tree := rfl
@[simp] theorem setGroup_ptu (s : State) (g : Nat) (x : Group) : (s.setGroup g x).ptu = s.ptu := rfl
@[simp] theorem setGroup_cal (s : State) (g : Nat) (x : Group) : (s.setGroup g x).cal = s.cal := rfl
@[simp] theorem setGroup_adc (s : State) (g : Nat) (x : Group) : (s.setGroup g x).adc = s.adc := rfl
@[simp] theorem setGroup_clerk (s : State) (g : Nat) (x : Group) : (s.setGroup g x).clerk = s.clerk := rfl
@[simp] theorem setGroup_fc (s : State) (g : Nat) (x : Group) : (s.setGroup g x).fc = s.fc := rfl
@[simp] theorem setGroup_boot (s : State) (g : Nat) (x : Group) : (s.setGroup g x).boot = s.boot := rfl
@[simp] theorem setGroup_timers (s : State) (g : Nat) (x : Group) : (s.setGroup g x).timers = s.timers := rfl
@[simp] theorem setGroup_freeCount (s : State) (g : Nat) (x : Group) : (s.setGroup g x).freeCount = s.freeCount := rfl
@[simp] theorem setGroup_out (s : State) (g : Nat) (x : Group) : (s.setGroup g x).out = s.out := rfl

/-! ### setRs -/

@[simp] theorem setRs_pending (s : State) (k : Nat) (x : RingSet) : (s.setRs k x).pending = s.pending := rfl
@[simp] theorem setRs_now (s : State) (k : Nat) (x : RingSet) : (s.setRs k x).now = s.now := rfl
@[simp] theorem setRs_regs (s : State) (k : Nat) (x : RingSet) : (s.setRs k x).regs = s.regs := rfl
@[simp] theorem setRs_rc (s : State) (k : Nat) (x : RingSet) : (s.setRs k x).rc = s.rc := rfl
@[simp] theorem setRs_host (s : State) (k : Nat) (x : RingSet) : (s.setRs k x).host = s.host := rfl
@[simp] theorem setRs_so (s : State) (k : Nat) (x : RingSet) : (s.setRs k x).so = s.so := rfl
@[simp] theorem setRs_cfg (s : State) (k : Nat) (x : RingSet) : (s.setRs k x).cfg = s.cfg := rfl
@[simp] theorem setRs_mem (s : State) (k : Nat) (x : RingSet) : (s.setRs k x).mem = s.mem := rfl
@[simp] theorem setRs_sites (s : State) (k : Nat) (x : RingSet) : (s.setRs k x).sites = s.sites := rfl
@[simp] theorem setRs_chans (s : State) (k : Nat) (x : RingSet) : (s.setRs k x).chans = s.chans := rfl
@[simp] theorem setRs_slots (s : State) (k : Nat) (x : RingSet) : (s.setRs k x).slots = s.slots := rfl
@[simp] theorem setRs_groups (s : State) (k : Nat) (x : RingSet) : (s.setRs k x).groups = s.groups := rfl
@[simp] theorem setRs_acq (s : State) (k : Nat) (x : RingSet) : (s.setRs k x).acq = s.acq := rfl
@[simp] theorem setRs_trg (s : State) (k : Nat) (x : RingSet) : (s.setRs k x).trg = s.trg := rfl
@[simp] theorem setRs_csp (s : State) (k : Nat) (x : RingSet) : (s.setRs k x).csp = s.csp := rfl
@[simp] theorem setRs_ports (s : State) (k : Nat) (x : RingSet) : (s.setRs k x).ports = s.ports := rfl
@[simp] theorem setRs_tree (s : State) (k : Nat) (x : RingSet) : (s.setRs k x).tree = s.tree := rfl
@[simp] theorem setRs_ptu (s : State) (k : Nat) (x : RingSet) : (s.setRs k x).ptu = s.ptu := rfl
@[simp] theorem setRs_cal (s : State) (k : Nat) (x : RingSet) : (s.setRs k x).cal = s.cal := rfl
@[simp] theorem setRs_adc (s : State) (k : Nat) (x : RingSet) : (s.setRs k x).adc = s.adc := rfl
@[simp] theorem setRs_clerk (s : State) (k : Nat) (x : RingSet) : (s.setRs k x).clerk = s.clerk := rfl
@[simp] theorem setRs_fc (s : State) (k : Nat) (x : RingSet) : (s.setRs k x).fc = s.fc := rfl
@[simp] theorem setRs_boot (s : State) (k : Nat) (x : RingSet) : (s.setRs k x).boot = s.boot := rfl
@[simp] theorem setRs_timers (s : State) (k : Nat) (x : RingSet) : (s.setRs k x).timers = s.timers := rfl
@[simp] theorem setRs_freeCount (s : State) (k : Nat) (x : RingSet) : (s.setRs k x).freeCount = s.freeCount := rfl
@[simp] theorem setRs_out (s : State) (k : Nat) (x : RingSet) : (s.setRs k x).out = s.out := rfl

/-! ### setStream -/

@[simp] theorem setStream_pending (s : State) (k : Nat) (x : Stream) : (s.setStream k x).pending = s.pending := rfl
@[simp] theorem setStream_now (s : State) (k : Nat) (x : Stream) : (s.setStream k x).now = s.now := rfl
@[simp] theorem setStream_regs (s : State) (k : Nat) (x : Stream) : (s.setStream k x).regs = s.regs := rfl
@[simp] theorem setStream_rc (s : State) (k : Nat) (x : Stream) : (s.setStream k x).rc = s.rc := rfl
@[simp] theorem setStream_host (s : State) (k : Nat) (x : Stream) : (s.setStream k x).host = s.host := rfl
@[simp] theorem setStream_hif (s : State) (k : Nat) (x : Stream) : (s.setStream k x).hif = s.hif := rfl
@[simp] theorem setStream_so (s : State) (k : Nat) (x : Stream) : (s.setStream k x).so = s.so := rfl
@[simp] theorem setStream_cfg (s : State) (k : Nat) (x : Stream) : (s.setStream k x).cfg = s.cfg := rfl
@[simp] theorem setStream_mem (s : State) (k : Nat) (x : Stream) : (s.setStream k x).mem = s.mem := rfl
@[simp] theorem setStream_sites (s : State) (k : Nat) (x : Stream) : (s.setStream k x).sites = s.sites := rfl
@[simp] theorem setStream_chans (s : State) (k : Nat) (x : Stream) : (s.setStream k x).chans = s.chans := rfl
@[simp] theorem setStream_slots (s : State) (k : Nat) (x : Stream) : (s.setStream k x).slots = s.slots := rfl
@[simp] theorem setStream_groups (s : State) (k : Nat) (x : Stream) : (s.setStream k x).groups = s.groups := rfl
@[simp] theorem setStream_trg (s : State) (k : Nat) (x : Stream) : (s.setStream k x).trg = s.trg := rfl
@[simp] theorem setStream_csp (s : State) (k : Nat) (x : Stream) : (s.setStream k x).csp = s.csp := rfl
@[simp] theorem setStream_ports (s : State) (k : Nat) (x : Stream) : (s.setStream k x).ports = s.ports := rfl
@[simp] theorem setStream_tree (s : State) (k : Nat) (x : Stream) : (s.setStream k x).tree = s.tree := rfl
@[simp] theorem setStream_ptu (s : State) (k : Nat) (x : Stream) : (s.setStream k x).ptu = s.ptu := rfl
@[simp] theorem setStream_cal (s : State) (k : Nat) (x : Stream) : (s.setStream k x).cal = s.cal := rfl
@[simp] theorem setStream_adc (s : State) (k : Nat) (x : Stream) : (s.setStream k x).adc = s.adc := rfl
@[simp] theorem setStream_clerk (s : State) (k : Nat) (x : Stream) : (s.setStream k x).clerk = s.clerk := rfl
@[simp] theorem setStream_fc (s : State) (k : Nat) (x : Stream) : (s.setStream k x).fc = s.fc := rfl
@[simp] theorem setStream_boot (s : State) (k : Nat) (x : Stream) : (s.setStream k x).boot = s.boot := rfl
@[simp] theorem setStream_timers (s : State) (k : Nat) (x : Stream) : (s.setStream k x).timers = s.timers := rfl
@[simp] theorem setStream_freeCount (s : State) (k : Nat) (x : Stream) : (s.setStream k x).freeCount = s.freeCount := rfl
@[simp] theorem setStream_out (s : State) (k : Nat) (x : Stream) : (s.setStream k x).out = s.out := rfl

/-! ### setPort -/

@[simp] theorem setPort_pending (s : State) (p : Nat) (x : Port) : (s.setPort p x).pending = s.pending := rfl
@[simp] theorem setPort_now (s : State) (p : Nat) (x : Port) : (s.setPort p x).now = s.now := rfl
@[simp] theorem setPort_regs (s : State) (p : Nat) (x : Port) : (s.setPort p x).regs = s.regs := rfl
@[simp] theorem setPort_rc (s : State) (p : Nat) (x : Port) : (s.setPort p x).rc = s.rc := rfl
@[simp] theorem setPort_host (s : State) (p : Nat) (x : Port) : (s.setPort p x).host = s.host := rfl
@[simp] theorem setPort_hif (s : State) (p : Nat) (x : Port) : (s.setPort p x).hif = s.hif := rfl
@[simp] theorem setPort_so (s : State) (p : Nat) (x : Port) : (s.setPort p x).so = s.so := rfl
@[simp] theorem setPort_cfg (s : State) (p : Nat) (x : Port) : (s.setPort p x).cfg = s.cfg := rfl
@[simp] theorem setPort_mem (s : State) (p : Nat) (x : Port) : (s.setPort p x).mem = s.mem := rfl
@[simp] theorem setPort_sites (s : State) (p : Nat) (x : Port) : (s.setPort p x).sites = s.sites := rfl
@[simp] theorem setPort_chans (s : State) (p : Nat) (x : Port) : (s.setPort p x).chans = s.chans := rfl
@[simp] theorem setPort_slots (s : State) (p : Nat) (x : Port) : (s.setPort p x).slots = s.slots := rfl
@[simp] theorem setPort_groups (s : State) (p : Nat) (x : Port) : (s.setPort p x).groups = s.groups := rfl
@[simp] theorem setPort_acq (s : State) (p : Nat) (x : Port) : (s.setPort p x).acq = s.acq := rfl
@[simp] theorem setPort_trg (s : State) (p : Nat) (x : Port) : (s.setPort p x).trg = s.trg := rfl
@[simp] theorem setPort_csp (s : State) (p : Nat) (x : Port) : (s.setPort p x).csp = s.csp := rfl
@[simp] theorem setPort_tree (s : State) (p : Nat) (x : Port) : (s.setPort p x).tree = s.tree := rfl
@[simp] theorem setPort_ptu (s : State) (p : Nat) (x : Port) : (s.setPort p x).ptu = s.ptu := rfl
@[simp] theorem setPort_cal (s : State) (p : Nat) (x : Port) : (s.setPort p x).cal = s.cal := rfl
@[simp] theorem setPort_adc (s : State) (p : Nat) (x : Port) : (s.setPort p x).adc = s.adc := rfl
@[simp] theorem setPort_clerk (s : State) (p : Nat) (x : Port) : (s.setPort p x).clerk = s.clerk := rfl
@[simp] theorem setPort_fc (s : State) (p : Nat) (x : Port) : (s.setPort p x).fc = s.fc := rfl
@[simp] theorem setPort_boot (s : State) (p : Nat) (x : Port) : (s.setPort p x).boot = s.boot := rfl
@[simp] theorem setPort_timers (s : State) (p : Nat) (x : Port) : (s.setPort p x).timers = s.timers := rfl
@[simp] theorem setPort_freeCount (s : State) (p : Nat) (x : Port) : (s.setPort p x).freeCount = s.freeCount := rfl
@[simp] theorem setPort_out (s : State) (p : Nat) (x : Port) : (s.setPort p x).out = s.out := rfl

/-! ### setSrc -/

@[simp] theorem setSrc_pending (s : State) (n : Nat) (x : Src) : (s.setSrc n x).pending = s.pending := rfl
@[simp] theorem setSrc_now (s : State) (n : Nat) (x : Src) : (s.setSrc n x).now = s.now := rfl
@[simp] theorem setSrc_regs (s : State) (n : Nat) (x : Src) : (s.setSrc n x).regs = s.regs := rfl
@[simp] theorem setSrc_rc (s : State) (n : Nat) (x : Src) : (s.setSrc n x).rc = s.rc := rfl
@[simp] theorem setSrc_host (s : State) (n : Nat) (x : Src) : (s.setSrc n x).host = s.host := rfl
@[simp] theorem setSrc_hif (s : State) (n : Nat) (x : Src) : (s.setSrc n x).hif = s.hif := rfl
@[simp] theorem setSrc_so (s : State) (n : Nat) (x : Src) : (s.setSrc n x).so = s.so := rfl
@[simp] theorem setSrc_cfg (s : State) (n : Nat) (x : Src) : (s.setSrc n x).cfg = s.cfg := rfl
@[simp] theorem setSrc_mem (s : State) (n : Nat) (x : Src) : (s.setSrc n x).mem = s.mem := rfl
@[simp] theorem setSrc_sites (s : State) (n : Nat) (x : Src) : (s.setSrc n x).sites = s.sites := rfl
@[simp] theorem setSrc_chans (s : State) (n : Nat) (x : Src) : (s.setSrc n x).chans = s.chans := rfl
@[simp] theorem setSrc_slots (s : State) (n : Nat) (x : Src) : (s.setSrc n x).slots = s.slots := rfl
@[simp] theorem setSrc_groups (s : State) (n : Nat) (x : Src) : (s.setSrc n x).groups = s.groups := rfl
@[simp] theorem setSrc_acq (s : State) (n : Nat) (x : Src) : (s.setSrc n x).acq = s.acq := rfl
@[simp] theorem setSrc_trg (s : State) (n : Nat) (x : Src) : (s.setSrc n x).trg = s.trg := rfl
@[simp] theorem setSrc_csp (s : State) (n : Nat) (x : Src) : (s.setSrc n x).csp = s.csp := rfl
@[simp] theorem setSrc_ports (s : State) (n : Nat) (x : Src) : (s.setSrc n x).ports = s.ports := rfl
@[simp] theorem setSrc_tree (s : State) (n : Nat) (x : Src) : (s.setSrc n x).tree = s.tree := rfl
@[simp] theorem setSrc_ptu (s : State) (n : Nat) (x : Src) : (s.setSrc n x).ptu = s.ptu := rfl
@[simp] theorem setSrc_cal (s : State) (n : Nat) (x : Src) : (s.setSrc n x).cal = s.cal := rfl
@[simp] theorem setSrc_adc (s : State) (n : Nat) (x : Src) : (s.setSrc n x).adc = s.adc := rfl
@[simp] theorem setSrc_clerk (s : State) (n : Nat) (x : Src) : (s.setSrc n x).clerk = s.clerk := rfl
@[simp] theorem setSrc_boot (s : State) (n : Nat) (x : Src) : (s.setSrc n x).boot = s.boot := rfl
@[simp] theorem setSrc_timers (s : State) (n : Nat) (x : Src) : (s.setSrc n x).timers = s.timers := rfl
@[simp] theorem setSrc_freeCount (s : State) (n : Nat) (x : Src) : (s.setSrc n x).freeCount = s.freeCount := rfl
@[simp] theorem setSrc_out (s : State) (n : Nat) (x : Src) : (s.setSrc n x).out = s.out := rfl

/-! ### setRank -/

@[simp] theorem setRank_pending (s : State) (c r : Nat) (x : Rank) : (s.setRank c r x).pending = s.pending := rfl
@[simp] theorem setRank_now (s : State) (c r : Nat) (x : Rank) : (s.setRank c r x).now = s.now := rfl
@[simp] theorem setRank_regs (s : State) (c r : Nat) (x : Rank) : (s.setRank c r x).regs = s.regs := rfl
@[simp] theorem setRank_rc (s : State) (c r : Nat) (x : Rank) : (s.setRank c r x).rc = s.rc := rfl
@[simp] theorem setRank_host (s : State) (c r : Nat) (x : Rank) : (s.setRank c r x).host = s.host := rfl
@[simp] theorem setRank_hif (s : State) (c r : Nat) (x : Rank) : (s.setRank c r x).hif = s.hif := rfl
@[simp] theorem setRank_so (s : State) (c r : Nat) (x : Rank) : (s.setRank c r x).so = s.so := rfl
@[simp] theorem setRank_cfg (s : State) (c r : Nat) (x : Rank) : (s.setRank c r x).cfg = s.cfg := rfl
@[simp] theorem setRank_sites (s : State) (c r : Nat) (x : Rank) : (s.setRank c r x).sites = s.sites := rfl
@[simp] theorem setRank_chans (s : State) (c r : Nat) (x : Rank) : (s.setRank c r x).chans = s.chans := rfl
@[simp] theorem setRank_slots (s : State) (c r : Nat) (x : Rank) : (s.setRank c r x).slots = s.slots := rfl
@[simp] theorem setRank_groups (s : State) (c r : Nat) (x : Rank) : (s.setRank c r x).groups = s.groups := rfl
@[simp] theorem setRank_acq (s : State) (c r : Nat) (x : Rank) : (s.setRank c r x).acq = s.acq := rfl
@[simp] theorem setRank_trg (s : State) (c r : Nat) (x : Rank) : (s.setRank c r x).trg = s.trg := rfl
@[simp] theorem setRank_csp (s : State) (c r : Nat) (x : Rank) : (s.setRank c r x).csp = s.csp := rfl
@[simp] theorem setRank_ports (s : State) (c r : Nat) (x : Rank) : (s.setRank c r x).ports = s.ports := rfl
@[simp] theorem setRank_tree (s : State) (c r : Nat) (x : Rank) : (s.setRank c r x).tree = s.tree := rfl
@[simp] theorem setRank_ptu (s : State) (c r : Nat) (x : Rank) : (s.setRank c r x).ptu = s.ptu := rfl
@[simp] theorem setRank_cal (s : State) (c r : Nat) (x : Rank) : (s.setRank c r x).cal = s.cal := rfl
@[simp] theorem setRank_adc (s : State) (c r : Nat) (x : Rank) : (s.setRank c r x).adc = s.adc := rfl
@[simp] theorem setRank_clerk (s : State) (c r : Nat) (x : Rank) : (s.setRank c r x).clerk = s.clerk := rfl
@[simp] theorem setRank_fc (s : State) (c r : Nat) (x : Rank) : (s.setRank c r x).fc = s.fc := rfl
@[simp] theorem setRank_boot (s : State) (c r : Nat) (x : Rank) : (s.setRank c r x).boot = s.boot := rfl
@[simp] theorem setRank_timers (s : State) (c r : Nat) (x : Rank) : (s.setRank c r x).timers = s.timers := rfl
@[simp] theorem setRank_freeCount (s : State) (c r : Nat) (x : Rank) : (s.setRank c r x).freeCount = s.freeCount := rfl
@[simp] theorem setRank_out (s : State) (c r : Nat) (x : Rank) : (s.setRank c r x).out = s.out := rfl

/-! ### setCtx -/

@[simp] theorem setCtx_pending (s : State) (k : Nat) (x : Ctx) : (s.setCtx k x).pending = s.pending := rfl
@[simp] theorem setCtx_now (s : State) (k : Nat) (x : Ctx) : (s.setCtx k x).now = s.now := rfl
@[simp] theorem setCtx_regs (s : State) (k : Nat) (x : Ctx) : (s.setCtx k x).regs = s.regs := rfl
@[simp] theorem setCtx_rc (s : State) (k : Nat) (x : Ctx) : (s.setCtx k x).rc = s.rc := rfl
@[simp] theorem setCtx_host (s : State) (k : Nat) (x : Ctx) : (s.setCtx k x).host = s.host := rfl
@[simp] theorem setCtx_hif (s : State) (k : Nat) (x : Ctx) : (s.setCtx k x).hif = s.hif := rfl
@[simp] theorem setCtx_so (s : State) (k : Nat) (x : Ctx) : (s.setCtx k x).so = s.so := rfl
@[simp] theorem setCtx_cfg (s : State) (k : Nat) (x : Ctx) : (s.setCtx k x).cfg = s.cfg := rfl
@[simp] theorem setCtx_mem (s : State) (k : Nat) (x : Ctx) : (s.setCtx k x).mem = s.mem := rfl
@[simp] theorem setCtx_sites (s : State) (k : Nat) (x : Ctx) : (s.setCtx k x).sites = s.sites := rfl
@[simp] theorem setCtx_chans (s : State) (k : Nat) (x : Ctx) : (s.setCtx k x).chans = s.chans := rfl
@[simp] theorem setCtx_slots (s : State) (k : Nat) (x : Ctx) : (s.setCtx k x).slots = s.slots := rfl
@[simp] theorem setCtx_groups (s : State) (k : Nat) (x : Ctx) : (s.setCtx k x).groups = s.groups := rfl
@[simp] theorem setCtx_acq (s : State) (k : Nat) (x : Ctx) : (s.setCtx k x).acq = s.acq := rfl
@[simp] theorem setCtx_trg (s : State) (k : Nat) (x : Ctx) : (s.setCtx k x).trg = s.trg := rfl
@[simp] theorem setCtx_csp (s : State) (k : Nat) (x : Ctx) : (s.setCtx k x).csp = s.csp := rfl
@[simp] theorem setCtx_ports (s : State) (k : Nat) (x : Ctx) : (s.setCtx k x).ports = s.ports := rfl
@[simp] theorem setCtx_tree (s : State) (k : Nat) (x : Ctx) : (s.setCtx k x).tree = s.tree := rfl
@[simp] theorem setCtx_ptu (s : State) (k : Nat) (x : Ctx) : (s.setCtx k x).ptu = s.ptu := rfl
@[simp] theorem setCtx_cal (s : State) (k : Nat) (x : Ctx) : (s.setCtx k x).cal = s.cal := rfl
@[simp] theorem setCtx_adc (s : State) (k : Nat) (x : Ctx) : (s.setCtx k x).adc = s.adc := rfl
@[simp] theorem setCtx_fc (s : State) (k : Nat) (x : Ctx) : (s.setCtx k x).fc = s.fc := rfl
@[simp] theorem setCtx_boot (s : State) (k : Nat) (x : Ctx) : (s.setCtx k x).boot = s.boot := rfl
@[simp] theorem setCtx_timers (s : State) (k : Nat) (x : Ctx) : (s.setCtx k x).timers = s.timers := rfl
@[simp] theorem setCtx_freeCount (s : State) (k : Nat) (x : Ctx) : (s.setCtx k x).freeCount = s.freeCount := rfl
@[simp] theorem setCtx_out (s : State) (k : Nat) (x : Ctx) : (s.setCtx k x).out = s.out := rfl

/-! ### setGen -/

@[simp] theorem setGen_pending (s : State) (g : Nat) (x : Gen) : (s.setGen g x).pending = s.pending := rfl
@[simp] theorem setGen_now (s : State) (g : Nat) (x : Gen) : (s.setGen g x).now = s.now := rfl
@[simp] theorem setGen_regs (s : State) (g : Nat) (x : Gen) : (s.setGen g x).regs = s.regs := rfl
@[simp] theorem setGen_rc (s : State) (g : Nat) (x : Gen) : (s.setGen g x).rc = s.rc := rfl
@[simp] theorem setGen_host (s : State) (g : Nat) (x : Gen) : (s.setGen g x).host = s.host := rfl
@[simp] theorem setGen_hif (s : State) (g : Nat) (x : Gen) : (s.setGen g x).hif = s.hif := rfl
@[simp] theorem setGen_so (s : State) (g : Nat) (x : Gen) : (s.setGen g x).so = s.so := rfl
@[simp] theorem setGen_cfg (s : State) (g : Nat) (x : Gen) : (s.setGen g x).cfg = s.cfg := rfl
@[simp] theorem setGen_mem (s : State) (g : Nat) (x : Gen) : (s.setGen g x).mem = s.mem := rfl
@[simp] theorem setGen_sites (s : State) (g : Nat) (x : Gen) : (s.setGen g x).sites = s.sites := rfl
@[simp] theorem setGen_chans (s : State) (g : Nat) (x : Gen) : (s.setGen g x).chans = s.chans := rfl
@[simp] theorem setGen_slots (s : State) (g : Nat) (x : Gen) : (s.setGen g x).slots = s.slots := rfl
@[simp] theorem setGen_groups (s : State) (g : Nat) (x : Gen) : (s.setGen g x).groups = s.groups := rfl
@[simp] theorem setGen_acq (s : State) (g : Nat) (x : Gen) : (s.setGen g x).acq = s.acq := rfl
@[simp] theorem setGen_trg (s : State) (g : Nat) (x : Gen) : (s.setGen g x).trg = s.trg := rfl
@[simp] theorem setGen_csp (s : State) (g : Nat) (x : Gen) : (s.setGen g x).csp = s.csp := rfl
@[simp] theorem setGen_ports (s : State) (g : Nat) (x : Gen) : (s.setGen g x).ports = s.ports := rfl
@[simp] theorem setGen_tree (s : State) (g : Nat) (x : Gen) : (s.setGen g x).tree = s.tree := rfl
@[simp] theorem setGen_cal (s : State) (g : Nat) (x : Gen) : (s.setGen g x).cal = s.cal := rfl
@[simp] theorem setGen_adc (s : State) (g : Nat) (x : Gen) : (s.setGen g x).adc = s.adc := rfl
@[simp] theorem setGen_clerk (s : State) (g : Nat) (x : Gen) : (s.setGen g x).clerk = s.clerk := rfl
@[simp] theorem setGen_fc (s : State) (g : Nat) (x : Gen) : (s.setGen g x).fc = s.fc := rfl
@[simp] theorem setGen_boot (s : State) (g : Nat) (x : Gen) : (s.setGen g x).boot = s.boot := rfl
@[simp] theorem setGen_timers (s : State) (g : Nat) (x : Gen) : (s.setGen g x).timers = s.timers := rfl
@[simp] theorem setGen_freeCount (s : State) (g : Nat) (x : Gen) : (s.setGen g x).freeCount = s.freeCount := rfl
@[simp] theorem setGen_out (s : State) (g : Nat) (x : Gen) : (s.setGen g x).out = s.out := rfl

/-! ### setMgroup -/

@[simp] theorem setMgroup_pending (s : State) (g : Nat) (x : MatchGroup) : (s.setMgroup g x).pending = s.pending := rfl
@[simp] theorem setMgroup_now (s : State) (g : Nat) (x : MatchGroup) : (s.setMgroup g x).now = s.now := rfl
@[simp] theorem setMgroup_regs (s : State) (g : Nat) (x : MatchGroup) : (s.setMgroup g x).regs = s.regs := rfl
@[simp] theorem setMgroup_rc (s : State) (g : Nat) (x : MatchGroup) : (s.setMgroup g x).rc = s.rc := rfl
@[simp] theorem setMgroup_host (s : State) (g : Nat) (x : MatchGroup) : (s.setMgroup g x).host = s.host := rfl
@[simp] theorem setMgroup_hif (s : State) (g : Nat) (x : MatchGroup) : (s.setMgroup g x).hif = s.hif := rfl
@[simp] theorem setMgroup_so (s : State) (g : Nat) (x : MatchGroup) : (s.setMgroup g x).so = s.so := rfl
@[simp] theorem setMgroup_cfg (s : State) (g : Nat) (x : MatchGroup) : (s.setMgroup g x).cfg = s.cfg := rfl
@[simp] theorem setMgroup_mem (s : State) (g : Nat) (x : MatchGroup) : (s.setMgroup g x).mem = s.mem := rfl
@[simp] theorem setMgroup_sites (s : State) (g : Nat) (x : MatchGroup) : (s.setMgroup g x).sites = s.sites := rfl
@[simp] theorem setMgroup_chans (s : State) (g : Nat) (x : MatchGroup) : (s.setMgroup g x).chans = s.chans := rfl
@[simp] theorem setMgroup_slots (s : State) (g : Nat) (x : MatchGroup) : (s.setMgroup g x).slots = s.slots := rfl
@[simp] theorem setMgroup_groups (s : State) (g : Nat) (x : MatchGroup) : (s.setMgroup g x).groups = s.groups := rfl
@[simp] theorem setMgroup_acq (s : State) (g : Nat) (x : MatchGroup) : (s.setMgroup g x).acq = s.acq := rfl
@[simp] theorem setMgroup_trg (s : State) (g : Nat) (x : MatchGroup) : (s.setMgroup g x).trg = s.trg := rfl
@[simp] theorem setMgroup_csp (s : State) (g : Nat) (x : MatchGroup) : (s.setMgroup g x).csp = s.csp := rfl
@[simp] theorem setMgroup_ports (s : State) (g : Nat) (x : MatchGroup) : (s.setMgroup g x).ports = s.ports := rfl
@[simp] theorem setMgroup_ptu (s : State) (g : Nat) (x : MatchGroup) : (s.setMgroup g x).ptu = s.ptu := rfl
@[simp] theorem setMgroup_cal (s : State) (g : Nat) (x : MatchGroup) : (s.setMgroup g x).cal = s.cal := rfl
@[simp] theorem setMgroup_adc (s : State) (g : Nat) (x : MatchGroup) : (s.setMgroup g x).adc = s.adc := rfl
@[simp] theorem setMgroup_clerk (s : State) (g : Nat) (x : MatchGroup) : (s.setMgroup g x).clerk = s.clerk := rfl
@[simp] theorem setMgroup_fc (s : State) (g : Nat) (x : MatchGroup) : (s.setMgroup g x).fc = s.fc := rfl
@[simp] theorem setMgroup_boot (s : State) (g : Nat) (x : MatchGroup) : (s.setMgroup g x).boot = s.boot := rfl
@[simp] theorem setMgroup_timers (s : State) (g : Nat) (x : MatchGroup) : (s.setMgroup g x).timers = s.timers := rfl
@[simp] theorem setMgroup_freeCount (s : State) (g : Nat) (x : MatchGroup) : (s.setMgroup g x).freeCount = s.freeCount := rfl
@[simp] theorem setMgroup_out (s : State) (g : Nat) (x : MatchGroup) : (s.setMgroup g x).out = s.out := rfl

/-! ### modSite -/

@[simp] theorem modSite_pending (s : State) (k : Nat) (f : Site → Site) : (s.modSite k f).pending = s.pending := rfl
@[simp] theorem modSite_now (s : State) (k : Nat) (f : Site → Site) : (s.modSite k f).now = s.now := rfl
@[simp] theorem modSite_regs (s : State) (k : Nat) (f : Site → Site) : (s.modSite k f).regs = s.regs := rfl
@[simp] theorem modSite_rc (s : State) (k : Nat) (f : Site → Site) : (s.modSite k f).rc = s.rc := rfl
@[simp] theorem modSite_host (s : State) (k : Nat) (f : Site → Site) : (s.modSite k f).host = s.host := rfl
@[simp] theorem modSite_hif (s : State) (k : Nat) (f : Site → Site) : (s.modSite k f).hif = s.hif := rfl
@[simp] theorem modSite_so (s : State) (k : Nat) (f : Site → Site) : (s.modSite k f).so = s.so := rfl
@[simp] theorem modSite_cfg (s : State) (k : Nat) (f : Site → Site) : (s.modSite k f).cfg = s.cfg := rfl
@[simp] theorem modSite_mem (s : State) (k : Nat) (f : Site → Site) : (s.modSite k f).mem = s.mem := rfl
@[simp] theorem modSite_chans (s : State) (k : Nat) (f : Site → Site) : (s.modSite k f).chans = s.chans := rfl
@[simp] theorem modSite_slots (s : State) (k : Nat) (f : Site → Site) : (s.modSite k f).slots = s.slots := rfl
@[simp] theorem modSite_groups (s : State) (k : Nat) (f : Site → Site) : (s.modSite k f).groups = s.groups := rfl
@[simp] theorem modSite_acq (s : State) (k : Nat) (f : Site → Site) : (s.modSite k f).acq = s.acq := rfl
@[simp] theorem modSite_trg (s : State) (k : Nat) (f : Site → Site) : (s.modSite k f).trg = s.trg := rfl
@[simp] theorem modSite_csp (s : State) (k : Nat) (f : Site → Site) : (s.modSite k f).csp = s.csp := rfl
@[simp] theorem modSite_ports (s : State) (k : Nat) (f : Site → Site) : (s.modSite k f).ports = s.ports := rfl
@[simp] theorem modSite_tree (s : State) (k : Nat) (f : Site → Site) : (s.modSite k f).tree = s.tree := rfl
@[simp] theorem modSite_ptu (s : State) (k : Nat) (f : Site → Site) : (s.modSite k f).ptu = s.ptu := rfl
@[simp] theorem modSite_cal (s : State) (k : Nat) (f : Site → Site) : (s.modSite k f).cal = s.cal := rfl
@[simp] theorem modSite_adc (s : State) (k : Nat) (f : Site → Site) : (s.modSite k f).adc = s.adc := rfl
@[simp] theorem modSite_clerk (s : State) (k : Nat) (f : Site → Site) : (s.modSite k f).clerk = s.clerk := rfl
@[simp] theorem modSite_fc (s : State) (k : Nat) (f : Site → Site) : (s.modSite k f).fc = s.fc := rfl
@[simp] theorem modSite_boot (s : State) (k : Nat) (f : Site → Site) : (s.modSite k f).boot = s.boot := rfl
@[simp] theorem modSite_timers (s : State) (k : Nat) (f : Site → Site) : (s.modSite k f).timers = s.timers := rfl
@[simp] theorem modSite_freeCount (s : State) (k : Nat) (f : Site → Site) : (s.modSite k f).freeCount = s.freeCount := rfl
@[simp] theorem modSite_out (s : State) (k : Nat) (f : Site → Site) : (s.modSite k f).out = s.out := rfl

/-! ### modChan -/

@[simp] theorem modChan_pending (s : State) (c : Nat) (f : Chan → Chan) : (s.modChan c f).pending = s.pending := rfl
@[simp] theorem modChan_now (s : State) (c : Nat) (f : Chan → Chan) : (s.modChan c f).now = s.now := rfl
@[simp] theorem modChan_regs (s : State) (c : Nat) (f : Chan → Chan) : (s.modChan c f).regs = s.regs := rfl
@[simp] theorem modChan_rc (s : State) (c : Nat) (f : Chan → Chan) : (s.modChan c f).rc = s.rc := rfl
@[simp] theorem modChan_host (s : State) (c : Nat) (f : Chan → Chan) : (s.modChan c f).host = s.host := rfl
@[simp] theorem modChan_hif (s : State) (c : Nat) (f : Chan → Chan) : (s.modChan c f).hif = s.hif := rfl
@[simp] theorem modChan_so (s : State) (c : Nat) (f : Chan → Chan) : (s.modChan c f).so = s.so := rfl
@[simp] theorem modChan_cfg (s : State) (c : Nat) (f : Chan → Chan) : (s.modChan c f).cfg = s.cfg := rfl
@[simp] theorem modChan_mem (s : State) (c : Nat) (f : Chan → Chan) : (s.modChan c f).mem = s.mem := rfl
@[simp] theorem modChan_sites (s : State) (c : Nat) (f : Chan → Chan) : (s.modChan c f).sites = s.sites := rfl
@[simp] theorem modChan_slots (s : State) (c : Nat) (f : Chan → Chan) : (s.modChan c f).slots = s.slots := rfl
@[simp] theorem modChan_groups (s : State) (c : Nat) (f : Chan → Chan) : (s.modChan c f).groups = s.groups := rfl
@[simp] theorem modChan_acq (s : State) (c : Nat) (f : Chan → Chan) : (s.modChan c f).acq = s.acq := rfl
@[simp] theorem modChan_trg (s : State) (c : Nat) (f : Chan → Chan) : (s.modChan c f).trg = s.trg := rfl
@[simp] theorem modChan_csp (s : State) (c : Nat) (f : Chan → Chan) : (s.modChan c f).csp = s.csp := rfl
@[simp] theorem modChan_ports (s : State) (c : Nat) (f : Chan → Chan) : (s.modChan c f).ports = s.ports := rfl
@[simp] theorem modChan_tree (s : State) (c : Nat) (f : Chan → Chan) : (s.modChan c f).tree = s.tree := rfl
@[simp] theorem modChan_ptu (s : State) (c : Nat) (f : Chan → Chan) : (s.modChan c f).ptu = s.ptu := rfl
@[simp] theorem modChan_cal (s : State) (c : Nat) (f : Chan → Chan) : (s.modChan c f).cal = s.cal := rfl
@[simp] theorem modChan_adc (s : State) (c : Nat) (f : Chan → Chan) : (s.modChan c f).adc = s.adc := rfl
@[simp] theorem modChan_clerk (s : State) (c : Nat) (f : Chan → Chan) : (s.modChan c f).clerk = s.clerk := rfl
@[simp] theorem modChan_fc (s : State) (c : Nat) (f : Chan → Chan) : (s.modChan c f).fc = s.fc := rfl
@[simp] theorem modChan_boot (s : State) (c : Nat) (f : Chan → Chan) : (s.modChan c f).boot = s.boot := rfl
@[simp] theorem modChan_timers (s : State) (c : Nat) (f : Chan → Chan) : (s.modChan c f).timers = s.timers := rfl
@[simp] theorem modChan_freeCount (s : State) (c : Nat) (f : Chan → Chan) : (s.modChan c f).freeCount = s.freeCount := rfl
@[simp] theorem modChan_out (s : State) (c : Nat) (f : Chan → Chan) : (s.modChan c f).out = s.out := rfl

/-! ### modGroup -/

@[simp] theorem modGroup_pending (s : State) (g : Nat) (f : Group → Group) : (s.modGroup g f).pending = s.pending := rfl
@[simp] theorem modGroup_now (s : State) (g : Nat) (f : Group → Group) : (s.modGroup g f).now = s.now := rfl
@[simp] theorem modGroup_regs (s : State) (g : Nat) (f : Group → Group) : (s.modGroup g f).regs = s.regs := rfl
@[simp] theorem modGroup_rc (s : State) (g : Nat) (f : Group → Group) : (s.modGroup g f).rc = s.rc := rfl
@[simp] theorem modGroup_host (s : State) (g : Nat) (f : Group → Group) : (s.modGroup g f).host = s.host := rfl
@[simp] theorem modGroup_hif (s : State) (g : Nat) (f : Group → Group) : (s.modGroup g f).hif = s.hif := rfl
@[simp] theorem modGroup_so (s : State) (g : Nat) (f : Group → Group) : (s.modGroup g f).so = s.so := rfl
@[simp] theorem modGroup_cfg (s : State) (g : Nat) (f : Group → Group) : (s.modGroup g f).cfg = s.cfg := rfl
@[simp] theorem modGroup_mem (s : State) (g : Nat) (f : Group → Group) : (s.modGroup g f).mem = s.mem := rfl
@[simp] theorem modGroup_sites (s : State) (g : Nat) (f : Group → Group) : (s.modGroup g f).sites = s.sites := rfl
@[simp] theorem modGroup_chans (s : State) (g : Nat) (f : Group → Group) : (s.modGroup g f).chans = s.chans := rfl
@[simp] theorem modGroup_slots (s : State) (g : Nat) (f : Group → Group) : (s.modGroup g f).slots = s.slots := rfl
@[simp] theorem modGroup_acq (s : State) (g : Nat) (f : Group → Group) : (s.modGroup g f).acq = s.acq := rfl
@[simp] theorem modGroup_trg (s : State) (g : Nat) (f : Group → Group) : (s.modGroup g f).trg = s.trg := rfl
@[simp] theorem modGroup_csp (s : State) (g : Nat) (f : Group → Group) : (s.modGroup g f).csp = s.csp := rfl
@[simp] theorem modGroup_ports (s : State) (g : Nat) (f : Group → Group) : (s.modGroup g f).ports = s.ports := rfl
@[simp] theorem modGroup_tree (s : State) (g : Nat) (f : Group → Group) : (s.modGroup g f).tree = s.tree := rfl
@[simp] theorem modGroup_ptu (s : State) (g : Nat) (f : Group → Group) : (s.modGroup g f).ptu = s.ptu := rfl
@[simp] theorem modGroup_cal (s : State) (g : Nat) (f : Group → Group) : (s.modGroup g f).cal = s.cal := rfl
@[simp] theorem modGroup_adc (s : State) (g : Nat) (f : Group → Group) : (s.modGroup g f).adc = s.adc := rfl
@[simp] theorem modGroup_clerk (s : State) (g : Nat) (f : Group → Group) : (s.modGroup g f).clerk = s.clerk := rfl
@[simp] theorem modGroup_fc (s : State) (g : Nat) (f : Group → Group) : (s.modGroup g f).fc = s.fc := rfl
@[simp] theorem modGroup_boot (s : State) (g : Nat) (f : Group → Group) : (s.modGroup g f).boot = s.boot := rfl
@[simp] theorem modGroup_timers (s : State) (g : Nat) (f : Group → Group) : (s.modGroup g f).timers = s.timers := rfl
@[simp] theorem modGroup_freeCount (s : State) (g : Nat) (f : Group → Group) : (s.modGroup g f).freeCount = s.freeCount := rfl
@[simp] theorem modGroup_out (s : State) (g : Nat) (f : Group → Group) : (s.modGroup g f).out = s.out := rfl

/-! ### modRs -/

@[simp] theorem modRs_pending (s : State) (k : Nat) (f : RingSet → RingSet) : (s.modRs k f).pending = s.pending := rfl
@[simp] theorem modRs_now (s : State) (k : Nat) (f : RingSet → RingSet) : (s.modRs k f).now = s.now := rfl
@[simp] theorem modRs_regs (s : State) (k : Nat) (f : RingSet → RingSet) : (s.modRs k f).regs = s.regs := rfl
@[simp] theorem modRs_rc (s : State) (k : Nat) (f : RingSet → RingSet) : (s.modRs k f).rc = s.rc := rfl
@[simp] theorem modRs_host (s : State) (k : Nat) (f : RingSet → RingSet) : (s.modRs k f).host = s.host := rfl
@[simp] theorem modRs_so (s : State) (k : Nat) (f : RingSet → RingSet) : (s.modRs k f).so = s.so := rfl
@[simp] theorem modRs_cfg (s : State) (k : Nat) (f : RingSet → RingSet) : (s.modRs k f).cfg = s.cfg := rfl
@[simp] theorem modRs_mem (s : State) (k : Nat) (f : RingSet → RingSet) : (s.modRs k f).mem = s.mem := rfl
@[simp] theorem modRs_sites (s : State) (k : Nat) (f : RingSet → RingSet) : (s.modRs k f).sites = s.sites := rfl
@[simp] theorem modRs_chans (s : State) (k : Nat) (f : RingSet → RingSet) : (s.modRs k f).chans = s.chans := rfl
@[simp] theorem modRs_slots (s : State) (k : Nat) (f : RingSet → RingSet) : (s.modRs k f).slots = s.slots := rfl
@[simp] theorem modRs_groups (s : State) (k : Nat) (f : RingSet → RingSet) : (s.modRs k f).groups = s.groups := rfl
@[simp] theorem modRs_acq (s : State) (k : Nat) (f : RingSet → RingSet) : (s.modRs k f).acq = s.acq := rfl
@[simp] theorem modRs_trg (s : State) (k : Nat) (f : RingSet → RingSet) : (s.modRs k f).trg = s.trg := rfl
@[simp] theorem modRs_csp (s : State) (k : Nat) (f : RingSet → RingSet) : (s.modRs k f).csp = s.csp := rfl
@[simp] theorem modRs_ports (s : State) (k : Nat) (f : RingSet → RingSet) : (s.modRs k f).ports = s.ports := rfl
@[simp] theorem modRs_tree (s : State) (k : Nat) (f : RingSet → RingSet) : (s.modRs k f).tree = s.tree := rfl
@[simp] theorem modRs_ptu (s : State) (k : Nat) (f : RingSet → RingSet) : (s.modRs k f).ptu = s.ptu := rfl
@[simp] theorem modRs_cal (s : State) (k : Nat) (f : RingSet → RingSet) : (s.modRs k f).cal = s.cal := rfl
@[simp] theorem modRs_adc (s : State) (k : Nat) (f : RingSet → RingSet) : (s.modRs k f).adc = s.adc := rfl
@[simp] theorem modRs_clerk (s : State) (k : Nat) (f : RingSet → RingSet) : (s.modRs k f).clerk = s.clerk := rfl
@[simp] theorem modRs_fc (s : State) (k : Nat) (f : RingSet → RingSet) : (s.modRs k f).fc = s.fc := rfl
@[simp] theorem modRs_boot (s : State) (k : Nat) (f : RingSet → RingSet) : (s.modRs k f).boot = s.boot := rfl
@[simp] theorem modRs_timers (s : State) (k : Nat) (f : RingSet → RingSet) : (s.modRs k f).timers = s.timers := rfl
@[simp] theorem modRs_freeCount (s : State) (k : Nat) (f : RingSet → RingSet) : (s.modRs k f).freeCount = s.freeCount := rfl
@[simp] theorem modRs_out (s : State) (k : Nat) (f : RingSet → RingSet) : (s.modRs k f).out = s.out := rfl

/-! ### modStream -/

@[simp] theorem modStream_pending (s : State) (k : Nat) (f : Stream → Stream) : (s.modStream k f).pending = s.pending := rfl
@[simp] theorem modStream_now (s : State) (k : Nat) (f : Stream → Stream) : (s.modStream k f).now = s.now := rfl
@[simp] theorem modStream_regs (s : State) (k : Nat) (f : Stream → Stream) : (s.modStream k f).regs = s.regs := rfl
@[simp] theorem modStream_rc (s : State) (k : Nat) (f : Stream → Stream) : (s.modStream k f).rc = s.rc := rfl
@[simp] theorem modStream_host (s : State) (k : Nat) (f : Stream → Stream) : (s.modStream k f).host = s.host := rfl
@[simp] theorem modStream_hif (s : State) (k : Nat) (f : Stream → Stream) : (s.modStream k f).hif = s.hif := rfl
@[simp] theorem modStream_so (s : State) (k : Nat) (f : Stream → Stream) : (s.modStream k f).so = s.so := rfl
@[simp] theorem modStream_cfg (s : State) (k : Nat) (f : Stream → Stream) : (s.modStream k f).cfg = s.cfg := rfl
@[simp] theorem modStream_mem (s : State) (k : Nat) (f : Stream → Stream) : (s.modStream k f).mem = s.mem := rfl
@[simp] theorem modStream_sites (s : State) (k : Nat) (f : Stream → Stream) : (s.modStream k f).sites = s.sites := rfl
@[simp] theorem modStream_chans (s : State) (k : Nat) (f : Stream → Stream) : (s.modStream k f).chans = s.chans := rfl
@[simp] theorem modStream_slots (s : State) (k : Nat) (f : Stream → Stream) : (s.modStream k f).slots = s.slots := rfl
@[simp] theorem modStream_groups (s : State) (k : Nat) (f : Stream → Stream) : (s.modStream k f).groups = s.groups := rfl
@[simp] theorem modStream_trg (s : State) (k : Nat) (f : Stream → Stream) : (s.modStream k f).trg = s.trg := rfl
@[simp] theorem modStream_csp (s : State) (k : Nat) (f : Stream → Stream) : (s.modStream k f).csp = s.csp := rfl
@[simp] theorem modStream_ports (s : State) (k : Nat) (f : Stream → Stream) : (s.modStream k f).ports = s.ports := rfl
@[simp] theorem modStream_tree (s : State) (k : Nat) (f : Stream → Stream) : (s.modStream k f).tree = s.tree := rfl
@[simp] theorem modStream_ptu (s : State) (k : Nat) (f : Stream → Stream) : (s.modStream k f).ptu = s.ptu := rfl
@[simp] theorem modStream_cal (s : State) (k : Nat) (f : Stream → Stream) : (s.modStream k f).cal = s.cal := rfl
@[simp] theorem modStream_adc (s : State) (k : Nat) (f : Stream → Stream) : (s.modStream k f).adc = s.adc := rfl
@[simp] theorem modStream_clerk (s : State) (k : Nat) (f : Stream → Stream) : (s.modStream k f).clerk = s.clerk := rfl
@[simp] theorem modStream_fc (s : State) (k : Nat) (f : Stream → Stream) : (s.modStream k f).fc = s.fc := rfl
@[simp] theorem modStream_boot (s : State) (k : Nat) (f : Stream → Stream) : (s.modStream k f).boot = s.boot := rfl
@[simp] theorem modStream_timers (s : State) (k : Nat) (f : Stream → Stream) : (s.modStream k f).timers = s.timers := rfl
@[simp] theorem modStream_freeCount (s : State) (k : Nat) (f : Stream → Stream) : (s.modStream k f).freeCount = s.freeCount := rfl
@[simp] theorem modStream_out (s : State) (k : Nat) (f : Stream → Stream) : (s.modStream k f).out = s.out := rfl

/-! ### modPort -/

@[simp] theorem modPort_pending (s : State) (p : Nat) (f : Port → Port) : (s.modPort p f).pending = s.pending := rfl
@[simp] theorem modPort_now (s : State) (p : Nat) (f : Port → Port) : (s.modPort p f).now = s.now := rfl
@[simp] theorem modPort_regs (s : State) (p : Nat) (f : Port → Port) : (s.modPort p f).regs = s.regs := rfl
@[simp] theorem modPort_rc (s : State) (p : Nat) (f : Port → Port) : (s.modPort p f).rc = s.rc := rfl
@[simp] theorem modPort_host (s : State) (p : Nat) (f : Port → Port) : (s.modPort p f).host = s.host := rfl
@[simp] theorem modPort_hif (s : State) (p : Nat) (f : Port → Port) : (s.modPort p f).hif = s.hif := rfl
@[simp] theorem modPort_so (s : State) (p : Nat) (f : Port → Port) : (s.modPort p f).so = s.so := rfl
@[simp] theorem modPort_cfg (s : State) (p : Nat) (f : Port → Port) : (s.modPort p f).cfg = s.cfg := rfl
@[simp] theorem modPort_mem (s : State) (p : Nat) (f : Port → Port) : (s.modPort p f).mem = s.mem := rfl
@[simp] theorem modPort_sites (s : State) (p : Nat) (f : Port → Port) : (s.modPort p f).sites = s.sites := rfl
@[simp] theorem modPort_chans (s : State) (p : Nat) (f : Port → Port) : (s.modPort p f).chans = s.chans := rfl
@[simp] theorem modPort_slots (s : State) (p : Nat) (f : Port → Port) : (s.modPort p f).slots = s.slots := rfl
@[simp] theorem modPort_groups (s : State) (p : Nat) (f : Port → Port) : (s.modPort p f).groups = s.groups := rfl
@[simp] theorem modPort_acq (s : State) (p : Nat) (f : Port → Port) : (s.modPort p f).acq = s.acq := rfl
@[simp] theorem modPort_trg (s : State) (p : Nat) (f : Port → Port) : (s.modPort p f).trg = s.trg := rfl
@[simp] theorem modPort_csp (s : State) (p : Nat) (f : Port → Port) : (s.modPort p f).csp = s.csp := rfl
@[simp] theorem modPort_tree (s : State) (p : Nat) (f : Port → Port) : (s.modPort p f).tree = s.tree := rfl
@[simp] theorem modPort_ptu (s : State) (p : Nat) (f : Port → Port) : (s.modPort p f).ptu = s.ptu := rfl
@[simp] theorem modPort_cal (s : State) (p : Nat) (f : Port → Port) : (s.modPort p f).cal = s.cal := rfl
@[simp] theorem modPort_adc (s : State) (p : Nat) (f : Port → Port) : (s.modPort p f).adc = s.adc := rfl
@[simp] theorem modPort_clerk (s : State) (p : Nat) (f : Port → Port) : (s.modPort p f).clerk = s.clerk := rfl
@[simp] theorem modPort_fc (s : State) (p : Nat) (f : Port → Port) : (s.modPort p f).fc = s.fc := rfl
@[simp] theorem modPort_boot (s : State) (p : Nat) (f : Port → Port) : (s.modPort p f).boot = s.boot := rfl
@[simp] theorem modPort_timers (s : State) (p : Nat) (f : Port → Port) : (s.modPort p f).timers = s.timers := rfl
@[simp] theorem modPort_freeCount (s : State) (p : Nat) (f : Port → Port) : (s.modPort p f).freeCount = s.freeCount := rfl
@[simp] theorem modPort_out (s : State) (p : Nat) (f : Port → Port) : (s.modPort p f).out = s.out := rfl

/-! ### drawn -/

@[simp] theorem drawn_pending (s : State) : (s.drawn).pending = s.pending := rfl
@[simp] theorem drawn_now (s : State) : (s.drawn).now = s.now := rfl
@[simp] theorem drawn_regs (s : State) : (s.drawn).regs = s.regs := rfl
@[simp] theorem drawn_rc (s : State) : (s.drawn).rc = s.rc := rfl
@[simp] theorem drawn_host (s : State) : (s.drawn).host = s.host := rfl
@[simp] theorem drawn_hif (s : State) : (s.drawn).hif = s.hif := rfl
@[simp] theorem drawn_so (s : State) : (s.drawn).so = s.so := rfl
@[simp] theorem drawn_cfg (s : State) : (s.drawn).cfg = s.cfg := rfl
@[simp] theorem drawn_mem (s : State) : (s.drawn).mem = s.mem := rfl
@[simp] theorem drawn_sites (s : State) : (s.drawn).sites = s.sites := rfl
@[simp] theorem drawn_chans (s : State) : (s.drawn).chans = s.chans := rfl
@[simp] theorem drawn_slots (s : State) : (s.drawn).slots = s.slots := rfl
@[simp] theorem drawn_groups (s : State) : (s.drawn).groups = s.groups := rfl
@[simp] theorem drawn_acq (s : State) : (s.drawn).acq = s.acq := rfl
@[simp] theorem drawn_trg (s : State) : (s.drawn).trg = s.trg := rfl
@[simp] theorem drawn_csp (s : State) : (s.drawn).csp = s.csp := rfl
@[simp] theorem drawn_ports (s : State) : (s.drawn).ports = s.ports := rfl
@[simp] theorem drawn_tree (s : State) : (s.drawn).tree = s.tree := rfl
@[simp] theorem drawn_ptu (s : State) : (s.drawn).ptu = s.ptu := rfl
@[simp] theorem drawn_cal (s : State) : (s.drawn).cal = s.cal := rfl
@[simp] theorem drawn_adc (s : State) : (s.drawn).adc = s.adc := rfl
@[simp] theorem drawn_clerk (s : State) : (s.drawn).clerk = s.clerk := rfl
@[simp] theorem drawn_fc (s : State) : (s.drawn).fc = s.fc := rfl
@[simp] theorem drawn_boot (s : State) : (s.drawn).boot = s.boot := rfl
@[simp] theorem drawn_timers (s : State) : (s.drawn).timers = s.timers := rfl
@[simp] theorem drawn_out (s : State) : (s.drawn).out = s.out := rfl

/-! ### advance -/

@[simp] theorem advance_pending (s : State) (t : Nat) : (s.advance t).pending = s.pending := rfl
@[simp] theorem advance_regs (s : State) (t : Nat) : (s.advance t).regs = s.regs := rfl
@[simp] theorem advance_rc (s : State) (t : Nat) : (s.advance t).rc = s.rc := rfl
@[simp] theorem advance_host (s : State) (t : Nat) : (s.advance t).host = s.host := rfl
@[simp] theorem advance_hif (s : State) (t : Nat) : (s.advance t).hif = s.hif := rfl
@[simp] theorem advance_so (s : State) (t : Nat) : (s.advance t).so = s.so := rfl
@[simp] theorem advance_cfg (s : State) (t : Nat) : (s.advance t).cfg = s.cfg := rfl
@[simp] theorem advance_mem (s : State) (t : Nat) : (s.advance t).mem = s.mem := rfl
@[simp] theorem advance_sites (s : State) (t : Nat) : (s.advance t).sites = s.sites := rfl
@[simp] theorem advance_chans (s : State) (t : Nat) : (s.advance t).chans = s.chans := rfl
@[simp] theorem advance_slots (s : State) (t : Nat) : (s.advance t).slots = s.slots := rfl
@[simp] theorem advance_groups (s : State) (t : Nat) : (s.advance t).groups = s.groups := rfl
@[simp] theorem advance_acq (s : State) (t : Nat) : (s.advance t).acq = s.acq := rfl
@[simp] theorem advance_trg (s : State) (t : Nat) : (s.advance t).trg = s.trg := rfl
@[simp] theorem advance_csp (s : State) (t : Nat) : (s.advance t).csp = s.csp := rfl
@[simp] theorem advance_ports (s : State) (t : Nat) : (s.advance t).ports = s.ports := rfl
@[simp] theorem advance_tree (s : State) (t : Nat) : (s.advance t).tree = s.tree := rfl
@[simp] theorem advance_ptu (s : State) (t : Nat) : (s.advance t).ptu = s.ptu := rfl
@[simp] theorem advance_cal (s : State) (t : Nat) : (s.advance t).cal = s.cal := rfl
@[simp] theorem advance_adc (s : State) (t : Nat) : (s.advance t).adc = s.adc := rfl
@[simp] theorem advance_clerk (s : State) (t : Nat) : (s.advance t).clerk = s.clerk := rfl
@[simp] theorem advance_fc (s : State) (t : Nat) : (s.advance t).fc = s.fc := rfl
@[simp] theorem advance_boot (s : State) (t : Nat) : (s.advance t).boot = s.boot := rfl
@[simp] theorem advance_timers (s : State) (t : Nat) : (s.advance t).timers = s.timers := rfl
@[simp] theorem advance_freeCount (s : State) (t : Nat) : (s.advance t).freeCount = s.freeCount := rfl
@[simp] theorem advance_out (s : State) (t : Nat) : (s.advance t).out = s.out := rfl

/-! ### hostWrite -/

@[simp] theorem hostWrite_pending (s : State) (a n v : Nat) : (s.hostWrite a n v).pending = s.pending := rfl
@[simp] theorem hostWrite_now (s : State) (a n v : Nat) : (s.hostWrite a n v).now = s.now := rfl
@[simp] theorem hostWrite_regs (s : State) (a n v : Nat) : (s.hostWrite a n v).regs = s.regs := rfl
@[simp] theorem hostWrite_rc (s : State) (a n v : Nat) : (s.hostWrite a n v).rc = s.rc := rfl
@[simp] theorem hostWrite_hif (s : State) (a n v : Nat) : (s.hostWrite a n v).hif = s.hif := rfl
@[simp] theorem hostWrite_so (s : State) (a n v : Nat) : (s.hostWrite a n v).so = s.so := rfl
@[simp] theorem hostWrite_cfg (s : State) (a n v : Nat) : (s.hostWrite a n v).cfg = s.cfg := rfl
@[simp] theorem hostWrite_mem (s : State) (a n v : Nat) : (s.hostWrite a n v).mem = s.mem := rfl
@[simp] theorem hostWrite_sites (s : State) (a n v : Nat) : (s.hostWrite a n v).sites = s.sites := rfl
@[simp] theorem hostWrite_chans (s : State) (a n v : Nat) : (s.hostWrite a n v).chans = s.chans := rfl
@[simp] theorem hostWrite_slots (s : State) (a n v : Nat) : (s.hostWrite a n v).slots = s.slots := rfl
@[simp] theorem hostWrite_groups (s : State) (a n v : Nat) : (s.hostWrite a n v).groups = s.groups := rfl
@[simp] theorem hostWrite_acq (s : State) (a n v : Nat) : (s.hostWrite a n v).acq = s.acq := rfl
@[simp] theorem hostWrite_trg (s : State) (a n v : Nat) : (s.hostWrite a n v).trg = s.trg := rfl
@[simp] theorem hostWrite_csp (s : State) (a n v : Nat) : (s.hostWrite a n v).csp = s.csp := rfl
@[simp] theorem hostWrite_ports (s : State) (a n v : Nat) : (s.hostWrite a n v).ports = s.ports := rfl
@[simp] theorem hostWrite_tree (s : State) (a n v : Nat) : (s.hostWrite a n v).tree = s.tree := rfl
@[simp] theorem hostWrite_ptu (s : State) (a n v : Nat) : (s.hostWrite a n v).ptu = s.ptu := rfl
@[simp] theorem hostWrite_cal (s : State) (a n v : Nat) : (s.hostWrite a n v).cal = s.cal := rfl
@[simp] theorem hostWrite_adc (s : State) (a n v : Nat) : (s.hostWrite a n v).adc = s.adc := rfl
@[simp] theorem hostWrite_clerk (s : State) (a n v : Nat) : (s.hostWrite a n v).clerk = s.clerk := rfl
@[simp] theorem hostWrite_fc (s : State) (a n v : Nat) : (s.hostWrite a n v).fc = s.fc := rfl
@[simp] theorem hostWrite_boot (s : State) (a n v : Nat) : (s.hostWrite a n v).boot = s.boot := rfl
@[simp] theorem hostWrite_timers (s : State) (a n v : Nat) : (s.hostWrite a n v).timers = s.timers := rfl
@[simp] theorem hostWrite_freeCount (s : State) (a n v : Nat) : (s.hostWrite a n v).freeCount = s.freeCount := rfl
@[simp] theorem hostWrite_out (s : State) (a n v : Nat) : (s.hostWrite a n v).out = s.out := rfl

/-! ### modTask -/

@[simp] theorem modTask_pending (s : State) (id : Nat) (f : Machine.Task → Machine.Task) : (s.modTask id f).pending = s.pending := rfl
@[simp] theorem modTask_now (s : State) (id : Nat) (f : Machine.Task → Machine.Task) : (s.modTask id f).now = s.now := rfl
@[simp] theorem modTask_regs (s : State) (id : Nat) (f : Machine.Task → Machine.Task) : (s.modTask id f).regs = s.regs := rfl
@[simp] theorem modTask_rc (s : State) (id : Nat) (f : Machine.Task → Machine.Task) : (s.modTask id f).rc = s.rc := rfl
@[simp] theorem modTask_host (s : State) (id : Nat) (f : Machine.Task → Machine.Task) : (s.modTask id f).host = s.host := rfl
@[simp] theorem modTask_hif (s : State) (id : Nat) (f : Machine.Task → Machine.Task) : (s.modTask id f).hif = s.hif := rfl
@[simp] theorem modTask_cfg (s : State) (id : Nat) (f : Machine.Task → Machine.Task) : (s.modTask id f).cfg = s.cfg := rfl
@[simp] theorem modTask_mem (s : State) (id : Nat) (f : Machine.Task → Machine.Task) : (s.modTask id f).mem = s.mem := rfl
@[simp] theorem modTask_sites (s : State) (id : Nat) (f : Machine.Task → Machine.Task) : (s.modTask id f).sites = s.sites := rfl
@[simp] theorem modTask_chans (s : State) (id : Nat) (f : Machine.Task → Machine.Task) : (s.modTask id f).chans = s.chans := rfl
@[simp] theorem modTask_slots (s : State) (id : Nat) (f : Machine.Task → Machine.Task) : (s.modTask id f).slots = s.slots := rfl
@[simp] theorem modTask_groups (s : State) (id : Nat) (f : Machine.Task → Machine.Task) : (s.modTask id f).groups = s.groups := rfl
@[simp] theorem modTask_acq (s : State) (id : Nat) (f : Machine.Task → Machine.Task) : (s.modTask id f).acq = s.acq := rfl
@[simp] theorem modTask_trg (s : State) (id : Nat) (f : Machine.Task → Machine.Task) : (s.modTask id f).trg = s.trg := rfl
@[simp] theorem modTask_csp (s : State) (id : Nat) (f : Machine.Task → Machine.Task) : (s.modTask id f).csp = s.csp := rfl
@[simp] theorem modTask_ports (s : State) (id : Nat) (f : Machine.Task → Machine.Task) : (s.modTask id f).ports = s.ports := rfl
@[simp] theorem modTask_tree (s : State) (id : Nat) (f : Machine.Task → Machine.Task) : (s.modTask id f).tree = s.tree := rfl
@[simp] theorem modTask_ptu (s : State) (id : Nat) (f : Machine.Task → Machine.Task) : (s.modTask id f).ptu = s.ptu := rfl
@[simp] theorem modTask_cal (s : State) (id : Nat) (f : Machine.Task → Machine.Task) : (s.modTask id f).cal = s.cal := rfl
@[simp] theorem modTask_adc (s : State) (id : Nat) (f : Machine.Task → Machine.Task) : (s.modTask id f).adc = s.adc := rfl
@[simp] theorem modTask_clerk (s : State) (id : Nat) (f : Machine.Task → Machine.Task) : (s.modTask id f).clerk = s.clerk := rfl
@[simp] theorem modTask_fc (s : State) (id : Nat) (f : Machine.Task → Machine.Task) : (s.modTask id f).fc = s.fc := rfl
@[simp] theorem modTask_boot (s : State) (id : Nat) (f : Machine.Task → Machine.Task) : (s.modTask id f).boot = s.boot := rfl
@[simp] theorem modTask_timers (s : State) (id : Nat) (f : Machine.Task → Machine.Task) : (s.modTask id f).timers = s.timers := rfl
@[simp] theorem modTask_freeCount (s : State) (id : Nat) (f : Machine.Task → Machine.Task) : (s.modTask id f).freeCount = s.freeCount := rfl
@[simp] theorem modTask_out (s : State) (id : Nat) (f : Machine.Task → Machine.Task) : (s.modTask id f).out = s.out := rfl

/-! ### setOutcome -/

@[simp] theorem setOutcome_pending (s : State) (id status result : Nat) : (s.setOutcome id status result).pending = s.pending := rfl
@[simp] theorem setOutcome_now (s : State) (id status result : Nat) : (s.setOutcome id status result).now = s.now := rfl
@[simp] theorem setOutcome_regs (s : State) (id status result : Nat) : (s.setOutcome id status result).regs = s.regs := rfl
@[simp] theorem setOutcome_rc (s : State) (id status result : Nat) : (s.setOutcome id status result).rc = s.rc := rfl
@[simp] theorem setOutcome_host (s : State) (id status result : Nat) : (s.setOutcome id status result).host = s.host := rfl
@[simp] theorem setOutcome_hif (s : State) (id status result : Nat) : (s.setOutcome id status result).hif = s.hif := rfl
@[simp] theorem setOutcome_cfg (s : State) (id status result : Nat) : (s.setOutcome id status result).cfg = s.cfg := rfl
@[simp] theorem setOutcome_mem (s : State) (id status result : Nat) : (s.setOutcome id status result).mem = s.mem := rfl
@[simp] theorem setOutcome_sites (s : State) (id status result : Nat) : (s.setOutcome id status result).sites = s.sites := rfl
@[simp] theorem setOutcome_chans (s : State) (id status result : Nat) : (s.setOutcome id status result).chans = s.chans := rfl
@[simp] theorem setOutcome_slots (s : State) (id status result : Nat) : (s.setOutcome id status result).slots = s.slots := rfl
@[simp] theorem setOutcome_groups (s : State) (id status result : Nat) : (s.setOutcome id status result).groups = s.groups := rfl
@[simp] theorem setOutcome_acq (s : State) (id status result : Nat) : (s.setOutcome id status result).acq = s.acq := rfl
@[simp] theorem setOutcome_trg (s : State) (id status result : Nat) : (s.setOutcome id status result).trg = s.trg := rfl
@[simp] theorem setOutcome_csp (s : State) (id status result : Nat) : (s.setOutcome id status result).csp = s.csp := rfl
@[simp] theorem setOutcome_ports (s : State) (id status result : Nat) : (s.setOutcome id status result).ports = s.ports := rfl
@[simp] theorem setOutcome_tree (s : State) (id status result : Nat) : (s.setOutcome id status result).tree = s.tree := rfl
@[simp] theorem setOutcome_ptu (s : State) (id status result : Nat) : (s.setOutcome id status result).ptu = s.ptu := rfl
@[simp] theorem setOutcome_cal (s : State) (id status result : Nat) : (s.setOutcome id status result).cal = s.cal := rfl
@[simp] theorem setOutcome_adc (s : State) (id status result : Nat) : (s.setOutcome id status result).adc = s.adc := rfl
@[simp] theorem setOutcome_clerk (s : State) (id status result : Nat) : (s.setOutcome id status result).clerk = s.clerk := rfl
@[simp] theorem setOutcome_fc (s : State) (id status result : Nat) : (s.setOutcome id status result).fc = s.fc := rfl
@[simp] theorem setOutcome_boot (s : State) (id status result : Nat) : (s.setOutcome id status result).boot = s.boot := rfl
@[simp] theorem setOutcome_timers (s : State) (id status result : Nat) : (s.setOutcome id status result).timers = s.timers := rfl
@[simp] theorem setOutcome_freeCount (s : State) (id status result : Nat) : (s.setOutcome id status result).freeCount = s.freeCount := rfl
@[simp] theorem setOutcome_out (s : State) (id status result : Nat) : (s.setOutcome id status result).out = s.out := rfl

/-! ### Reads after updates -/

@[simp] theorem setSite_site_same (s : State) (k : Nat) (x : Site) : (s.setSite k x).site k = x := by simp [State.setSite, State.site]
theorem setSite_site_other (s : State) {k j : Nat} (x : Site) (h : j ≠ k) : (s.setSite k x).site j = s.site j := by
  simp [State.setSite, State.site, tget_tset_other _ _ x h]
@[simp] theorem setChan_chan_same (s : State) (k : Nat) (x : Chan) : (s.setChan k x).chan k = x := by simp [State.setChan, State.chan]
theorem setChan_chan_other (s : State) {k j : Nat} (x : Chan) (h : j ≠ k) : (s.setChan k x).chan j = s.chan j := by
  simp [State.setChan, State.chan, tget_tset_other _ _ x h]
@[simp] theorem setSlot_slot_same (s : State) (k : Nat) (x : Slot) : (s.setSlot k x).slot k = x := by simp [State.setSlot, State.slot]
theorem setSlot_slot_other (s : State) {k j : Nat} (x : Slot) (h : j ≠ k) : (s.setSlot k x).slot j = s.slot j := by
  simp [State.setSlot, State.slot, tget_tset_other _ _ x h]
@[simp] theorem setGroup_group_same (s : State) (k : Nat) (x : Group) : (s.setGroup k x).group k = x := by simp [State.setGroup, State.group]
theorem setGroup_group_other (s : State) {k j : Nat} (x : Group) (h : j ≠ k) : (s.setGroup k x).group j = s.group j := by
  simp [State.setGroup, State.group, tget_tset_other _ _ x h]
@[simp] theorem setRs_rs_same (s : State) (k : Nat) (x : RingSet) : (s.setRs k x).rs k = x := by simp [State.setRs, State.rs]
theorem setRs_rs_other (s : State) {k j : Nat} (x : RingSet) (h : j ≠ k) : (s.setRs k x).rs j = s.rs j := by
  simp [State.setRs, State.rs, tget_tset_other _ _ x h]
@[simp] theorem setStream_stream_same (s : State) (k : Nat) (x : Stream) : (s.setStream k x).stream k = x := by simp [State.setStream, State.stream]
theorem setStream_stream_other (s : State) {k j : Nat} (x : Stream) (h : j ≠ k) : (s.setStream k x).stream j = s.stream j := by
  simp [State.setStream, State.stream, tget_tset_other _ _ x h]
@[simp] theorem setPort_port_same (s : State) (k : Nat) (x : Port) : (s.setPort k x).port k = x := by simp [State.setPort, State.port]
theorem setPort_port_other (s : State) {k j : Nat} (x : Port) (h : j ≠ k) : (s.setPort k x).port j = s.port j := by
  simp [State.setPort, State.port, tget_tset_other _ _ x h]
@[simp] theorem setSrc_src_same (s : State) (k : Nat) (x : Src) : (s.setSrc k x).src k = x := by simp [State.setSrc, State.src]
theorem setSrc_src_other (s : State) {k j : Nat} (x : Src) (h : j ≠ k) : (s.setSrc k x).src j = s.src j := by
  simp [State.setSrc, State.src, tget_tset_other _ _ x h]
@[simp] theorem setCtx_ctx_same (s : State) (k : Nat) (x : Ctx) : (s.setCtx k x).ctx k = x := by simp [State.setCtx, State.ctx]
theorem setCtx_ctx_other (s : State) {k j : Nat} (x : Ctx) (h : j ≠ k) : (s.setCtx k x).ctx j = s.ctx j := by
  simp [State.setCtx, State.ctx, tget_tset_other _ _ x h]
@[simp] theorem setGen_gen_same (s : State) (k : Nat) (x : Gen) : (s.setGen k x).gen k = x := by simp [State.setGen, State.gen]
theorem setGen_gen_other (s : State) {k j : Nat} (x : Gen) (h : j ≠ k) : (s.setGen k x).gen j = s.gen j := by
  simp [State.setGen, State.gen, tget_tset_other _ _ x h]
@[simp] theorem setMgroup_mgroup_same (s : State) (k : Nat) (x : MatchGroup) : (s.setMgroup k x).mgroup k = x := by simp [State.setMgroup, State.mgroup]
theorem setMgroup_mgroup_other (s : State) {k j : Nat} (x : MatchGroup) (h : j ≠ k) : (s.setMgroup k x).mgroup j = s.mgroup j := by
  simp [State.setMgroup, State.mgroup, tget_tset_other _ _ x h]
@[simp] theorem modSite_site_same (s : State) (k : Nat) (f : Site → Site) : (s.modSite k f).site k = f (s.site k) := by simp [State.modSite]
theorem modSite_site_other (s : State) {k j : Nat} (f : Site → Site) (h : j ≠ k) : (s.modSite k f).site j = s.site j := by
  simp [State.modSite, setSite_site_other s _ h]
@[simp] theorem modChan_chan_same (s : State) (k : Nat) (f : Chan → Chan) : (s.modChan k f).chan k = f (s.chan k) := by simp [State.modChan]
theorem modChan_chan_other (s : State) {k j : Nat} (f : Chan → Chan) (h : j ≠ k) : (s.modChan k f).chan j = s.chan j := by
  simp [State.modChan, setChan_chan_other s _ h]
@[simp] theorem modGroup_group_same (s : State) (k : Nat) (f : Group → Group) : (s.modGroup k f).group k = f (s.group k) := by simp [State.modGroup]
theorem modGroup_group_other (s : State) {k j : Nat} (f : Group → Group) (h : j ≠ k) : (s.modGroup k f).group j = s.group j := by
  simp [State.modGroup, setGroup_group_other s _ h]
@[simp] theorem modRs_rs_same (s : State) (k : Nat) (f : RingSet → RingSet) : (s.modRs k f).rs k = f (s.rs k) := by simp [State.modRs]
theorem modRs_rs_other (s : State) {k j : Nat} (f : RingSet → RingSet) (h : j ≠ k) : (s.modRs k f).rs j = s.rs j := by
  simp [State.modRs, setRs_rs_other s _ h]
@[simp] theorem modStream_stream_same (s : State) (k : Nat) (f : Stream → Stream) : (s.modStream k f).stream k = f (s.stream k) := by simp [State.modStream]
theorem modStream_stream_other (s : State) {k j : Nat} (f : Stream → Stream) (h : j ≠ k) : (s.modStream k f).stream j = s.stream j := by
  simp [State.modStream, setStream_stream_other s _ h]
@[simp] theorem modPort_port_same (s : State) (k : Nat) (f : Port → Port) : (s.modPort k f).port k = f (s.port k) := by simp [State.modPort]
theorem modPort_port_other (s : State) {k j : Nat} (f : Port → Port) (h : j ≠ k) : (s.modPort k f).port j = s.port j := by
  simp [State.modPort, setPort_port_other s _ h]
@[simp] theorem setReg_reg_same (s : State) (a v : Nat) : (s.setReg a v).reg a = v % 2 ^ 32 := by
  simp [State.setReg, State.reg]
theorem setReg_reg_other (s : State) {a b : Nat} (v : Nat) (h : b ≠ a) : (s.setReg a v).reg b = s.reg b := by
  simp [State.setReg, State.reg, tget_tset_ne _ _ _ _ h]
@[simp] theorem setRc_rcOf_same (s : State) (a v : Nat) : (s.setRc a v).rcOf a = v := by simp [State.setRc, State.rcOf]
theorem setRc_rcOf_other (s : State) {a b : Nat} (v : Nat) (h : b ≠ a) : (s.setRc a v).rcOf b = s.rcOf b := by
  simp [State.setRc, State.rcOf, tget_tset_other _ _ _ h]

end Sys2Proof.Machine
end

