-- ==== Sys2Proof/Laws/Office.lean ====
section
/-! SUPPORT. The Sorting Office: how an accepted envelope reaches its engine, how a task takes and leaves its slot, and what a
completion writes. -/

namespace Sys2Proof.Machine

/-- An accepted envelope is at its engine, in a slot of its own. -/
theorem serve_accepts {s : State} {h : Hdr} {op : Op} {e : Machine.Task → State → State} (ha : Accepts s h op) :
    serve h op e s = e (taskOf s h op) (s.addTask (taskOf s h op)) := by
  obtain ⟨h1, h2, h3⟩ := ha
  simp [serve, take, h1, h2, h3, taskOf]

/-- A read that may take no envelope changes nothing. -/
theorem serve_no_room {s : State} {h : Hdr} {op : Op} {e : Machine.Task → State → State} (hr : s.fetchRoom h.rs.val = 0) :
    serve h op e s = s := by
  simp [serve, hr]

/-- An envelope whose checks fail completes at once with their status. -/
theorem serve_refused {s : State} {h : Hdr} {op : Op} {e : Machine.Task → State → State} {st : Nat}
    (hr : s.fetchRoom h.rs.val ≠ 0) (hs : s.envelopeStatus h (s.rsFn h.rs.val) op = st) (h0 : st ≠ 0) :
    serve h op e s = (s.addTask (taskOf s h op)).complete (taskOf s h op) st 0 := by
  simp [serve, take, hr, hs, h0, taskOf]

/-- A task that takes a slot changes the office and SO_PAUSES alone. -/
theorem addTask_frame (s : State) (t : Machine.Task) : s.addTask t = { s with so := (s.addTask t).so, rc := (s.addTask t).rc } := by
  unfold State.addTask State.pauseCheck
  dsimp only
  split <;> rfl

@[simp] theorem addTask_tasks (s : State) (t : Machine.Task) : (s.addTask t).so.tasks = s.so.tasks ++ [t] := by
  unfold State.addTask State.pauseCheck
  dsimp only
  split <;> rfl

@[simp] theorem addTask_nextId (s : State) (t : Machine.Task) : (s.addTask t).so.nextId = s.so.nextId + 1 := by
  unfold State.addTask State.pauseCheck
  dsimp only
  split <;> rfl

@[simp] theorem addTask_host (s : State) (t : Machine.Task) : (s.addTask t).host = s.host := by rw [addTask_frame]
@[simp] theorem addTask_hif (s : State) (t : Machine.Task) : (s.addTask t).hif = s.hif := by rw [addTask_frame]
@[simp] theorem addTask_regs (s : State) (t : Machine.Task) : (s.addTask t).regs = s.regs := by rw [addTask_frame]
@[simp] theorem addTask_cfg (s : State) (t : Machine.Task) : (s.addTask t).cfg = s.cfg := by rw [addTask_frame]
@[simp] theorem addTask_now (s : State) (t : Machine.Task) : (s.addTask t).now = s.now := by rw [addTask_frame]
@[simp] theorem addTask_pending (s : State) (t : Machine.Task) : (s.addTask t).pending = s.pending := by rw [addTask_frame]

/-- Signalling a vector touches the pending bits and what leaves the device. -/
theorem msix_frame (s : State) (fn v : Nat) : s.msix fn v = { s with hif := (s.msix fn v).hif, out := (s.msix fn v).out } := by
  unfold State.msix
  repeat' split
  all_goals rfl

theorem msix_rings (s : State) (fn v : Nat) : (s.msix fn v).hif.rings = s.hif.rings := by
  unfold State.msix
  repeat' split
  all_goals rfl

theorem signalRing_frame (s : State) (k r : Nat) :
    s.signalRing k r = { s with hif := (s.signalRing k r).hif, out := (s.signalRing k r).out } := by
  unfold State.signalRing
  dsimp only
  split <;> split <;> (first | rfl | (rw [msix_frame]; done) | (rw [msix_frame]; rfl))

theorem entryWritten_frame (s : State) (k r : Nat) (b : Bool) :
    s.entryWritten k r b = { s with hif := (s.entryWritten k r b).hif, out := (s.entryWritten k r b).out } := by
  unfold State.entryWritten
  dsimp only
  split
  · exact signalRing_frame s k r
  · split <;> rfl

@[simp] theorem entryWritten_host (s : State) (k r : Nat) (b : Bool) : (s.entryWritten k r b).host = s.host := by
  rw [entryWritten_frame]
@[simp] theorem entryWritten_so (s : State) (k r : Nat) (b : Bool) : (s.entryWritten k r b).so = s.so := by
  rw [entryWritten_frame]
@[simp] theorem entryWritten_rc (s : State) (k r : Nat) (b : Bool) : (s.entryWritten k r b).rc = s.rc := by
  rw [entryWritten_frame]

/-- Signals leave a ring set's indices alone. -/
theorem signalRing_indices (s : State) (k r j : Nat) :
    ((s.signalRing k r).rs j).cplProd = (s.rs j).cplProd ∧ ((s.signalRing k r).rs j).cmdCons = (s.rs j).cmdCons
      ∧ ((s.signalRing k r).rs j).strCons = (s.rs j).strCons := by
  have hm : ∀ (t : State) fn v, ((t.msix fn v).rs j) = t.rs j := fun t fn v => by simp [State.rs, msix_rings]
  have hk : ∀ (f : RingSet → RingSet), (∀ x, (f x).cplProd = x.cplProd ∧ (f x).cmdCons = x.cmdCons ∧ (f x).strCons = x.strCons) →
      ((s.modRs k f).rs j).cplProd = (s.rs j).cplProd ∧ ((s.modRs k f).rs j).cmdCons = (s.rs j).cmdCons
        ∧ ((s.modRs k f).rs j).strCons = (s.rs j).strCons := by
    intro f hf
    by_cases h : j = k
    · subst h; simpa using hf (s.rs j)
    · simp [modRs_rs_other s f h]
  unfold State.signalRing
  dsimp only
  split <;> split <;> (try rw [hm]) <;> (first | exact ⟨rfl, rfl, rfl⟩ | exact hk _ (fun _ => ⟨rfl, rfl, rfl⟩))

theorem entryWritten_indices (s : State) (k r : Nat) (b : Bool) (j : Nat) :
    ((s.entryWritten k r b).rs j).cplProd = (s.rs j).cplProd ∧ ((s.entryWritten k r b).rs j).cmdCons = (s.rs j).cmdCons
      ∧ ((s.entryWritten k r b).rs j).strCons = (s.rs j).strCons := by
  unfold State.entryWritten
  dsimp only
  split
  · exact signalRing_indices s k r j
  · split
    · exact ⟨rfl, rfl, rfl⟩
    · by_cases h : j = k
      · subst h; simp
      · simp [modRs_rs_other s _ h]

/-- The write-back area changes host memory alone, in its 20 bytes (Table 11.5). -/
theorem writeBack_frame (s : State) (k : Nat) : s.writeBack k = { s with host := (s.writeBack k).host } := rfl

theorem writeBack_outside (s : State) (k a : Nat) (h : a < s.reg64 (aRs k 0x18) ∨ s.reg64 (aRs k 0x18) + 20 ≤ a) :
    readByte (s.writeBack k).host a = readByte s.host a :=
  readByte_writeLE_outside _ _ _ _ _ h

theorem completionEntry_lt (h : Hdr) (status result time : Nat) : completionEntry h status result time < 2 ^ 256 := by
  have h1 := h.tag.isLt
  have h2 := h.flow.isLt
  have h3 := Nat.mod_lt status (show 0 < 65536 by decide)
  have h4 := Nat.mod_lt result (show 0 < 2 ^ 128 by decide)
  have h5 : time80 time < 2 ^ 80 := by
    unfold time80 tuPerSec
    have := Nat.mod_lt time (show 0 < 8000000000000 by decide)
    have := Nat.mod_lt (time / 8000000000000) (show 0 < 2 ^ 37 by decide)
    omega
  unfold completionEntry
  omega

/-- COMPLETION_WRITE changes host memory and the ring set's indices and signals alone. -/
theorem writeCompletion_frame (s : State) (t : Machine.Task) (st r : Nat) :
    s.writeCompletion t st r = { s with host := (s.writeCompletion t st r).host, hif := (s.writeCompletion t st r).hif,
                                        out := (s.writeCompletion t st r).out } := by
  unfold State.writeCompletion
  dsimp only
  rw [entryWritten_frame]
  rfl

/-- COMPLETION_WRITE: the entry of Table 11.10 stands at the producer index, which moves on by one (R250). -/
theorem writeCompletion_entry (s : State) (t : Machine.Task) (st r : Nat) :
    let k := t.hdr.rs.val
    let e := s.entryAddr k 1 32 (s.rs k).cplProd.toNat
    let w := s.reg64 (aRs k 0x18)
    ((s.writeCompletion t st r).rs k).cplProd = (s.rs k).cplProd + 1
      ∧ (e + 32 ≤ w ∨ w + 20 ≤ e → readLE (s.writeCompletion t st r).host e 32 = completionEntry t.hdr st r s.ptuNow)
      ∧ ∀ a, (a < e ∨ e + 32 ≤ a) → (a < w ∨ w + 20 ≤ a) → readByte (s.writeCompletion t st r).host a = readByte s.host a := by
  intro k e w
  refine ⟨?_, ?_, ?_⟩
  · unfold State.writeCompletion
    dsimp only
    rw [(entryWritten_indices _ _ _ _ _).1]
    show (tget RingSet.reset (tset RingSet.reset s.hif.rings k _) k).cplProd = _
    rw [tget_tset_same]
    rfl
  · intro h
    unfold State.writeCompletion
    dsimp only
    rw [entryWritten_host]
    show readLE (writeLE (writeLE s.host e 32 (completionEntry t.hdr st r s.ptuNow)) w 20 _) e 32 = _
    rw [readLE_writeLE_outside _ _ _ _ _ _ h, readLE_writeLE_same]
    exact Nat.mod_eq_of_lt (by simpa using completionEntry_lt t.hdr st r s.ptuNow)
  · intro a h1 h2
    unfold State.writeCompletion
    dsimp only
    rw [entryWritten_host]
    show readByte (writeLE (writeLE s.host e 32 _) w 20 _) a = _
    rw [readByte_writeLE_outside _ _ _ _ _ h2, readByte_writeLE_outside _ _ _ _ _ h1]

/-! ### The end of a task -/

theorem settleCancels_idle {s : State} (id : Nat) (hs : s.so.tasks = []) : s.settleCancels id = s := by
  unfold State.settleCancels
  simp only [hs, List.map_nil, List.filter_nil, List.foldl_nil]
  rw [← hs]

theorem refresh_idle {s : State} (hs : s.so.tasks = []) : s.refresh = s := by
  unfold State.refresh
  simp only [hs, List.filter_nil, List.foldr_nil, List.foldl_nil]
  rw [← hs]

theorem pauseCheck_frame (s : State) : s.pauseCheck = { s with so := s.pauseCheck.so, rc := s.pauseCheck.rc } := by
  unfold State.pauseCheck
  dsimp only
  split <;> rfl

@[simp] theorem pauseCheck_tasks (s : State) : s.pauseCheck.so.tasks = s.so.tasks := by
  unfold State.pauseCheck
  dsimp only
  split <;> rfl

/-- The only task of the office completes: the slot is free and the completion stands (R250, R256). -/
theorem complete_alone {s : State} {t : Machine.Task} {st r : Nat} (hs : s.so.tasks = [t]) (hc : t.courier = false)
    (hq : t.hdr.quiet = false ∨ st ≠ 0) :
    Completed s (s.complete t st r) t.hdr st r ∧ SameButOffice s (s.complete t st r) := by
  have he : (t.hdr.quiet && st == 0) = false := by rcases hq with h | h <;> simp [h]
  let s' : State := { s with so := { s.so with tasks := [{ t with st := .completing }] } }
  have f := writeCompletion_frame s' t st r
  have e : s.endTask t st r =
      { s'.writeCompletion t st r with so := { (s'.writeCompletion t st r).so with tasks := [] } } := by
    have m : s.so.tasks.map (fun (u : Machine.Task) => if u.id = t.id then { u with st := .completing } else u)
        = [{ t with st := .completing }] := by simp [hs]
    unfold State.endTask
    simp only [m]
    rw [if_neg (by simp [hc]), if_neg (by simp [he])]
    have g : (s'.writeCompletion t st r).so.tasks.filter (fun u => u.id != t.id) = [] := by rw [f]; simp [s']
    show { s'.writeCompletion t st r with so := { (s'.writeCompletion t st r).so with
      tasks := (s'.writeCompletion t st r).so.tasks.filter (fun u => u.id != t.id) } } = _
    rw [g]
  have h0 : (s.endTask t st r).so.tasks = [] := by rw [e]
  have h1 : s.complete t st r = (s.endTask t st r).pauseCheck := by
    rw [State.complete, settleCancels_idle _ h0, refresh_idle h0]
  obtain ⟨a, b, c⟩ := writeCompletion_entry s' t st r
  rw [h1]
  refine ⟨⟨?_, ?_, ?_, ?_⟩, ?_⟩
  · rw [pauseCheck_tasks, h0]
  · rw [pauseCheck_frame, e]; exact a
  · rw [pauseCheck_frame, e]; exact b
  · rw [pauseCheck_frame, e]; exact c
  · rw [SameButOffice, pauseCheck_frame, e, f]

/-- An envelope that completes at its dispatch, in an office without another task. -/
theorem addTask_complete {s : State} {h : Hdr} {op : Op} {st r : Nat} (hs : s.so.tasks = []) (hq : h.quiet = false ∨ st ≠ 0) :
    Completed s ((s.addTask (taskOf s h op)).complete (taskOf s h op) st r) h st r
      ∧ SameButOffice s ((s.addTask (taskOf s h op)).complete (taskOf s h op) st r) := by
  obtain ⟨⟨a, b, c, d⟩, e⟩ := complete_alone (s := s.addTask (taskOf s h op)) (t := taskOf s h op) (st := st) (r := r)
    (by simp [hs]) rfl hq
  have f := addTask_frame s (taskOf s h op)
  refine ⟨⟨a, ?_, ?_, ?_⟩, ?_⟩
  · rw [f] at b ⊢; exact b
  · rw [f] at c ⊢; exact c
  · rw [f] at d ⊢; exact d
  · unfold SameButOffice at e ⊢
    rw [e, f]

/-- With fresh ids, the task that has just taken its slot is found by its id. -/
theorem addTask_task {s : State} {h : Hdr} {op : Op} (hf : s.idsFresh) :
    (s.addTask (taskOf s h op)).task s.so.nextId = some (taskOf s h op) := by
  unfold State.task
  rw [addTask_tasks, List.find?_append]
  have : List.find? (fun t => t.id == s.so.nextId) s.so.tasks = none := by
    simp only [List.find?_eq_none, beq_iff_eq]
    intro u hu
    have := hf u hu
    omega
  simp [this, taskOf, State.newTask]

/-- A task as it is changed, found by its id. -/
theorem modTask_task (s : State) (id : Nat) (f : Machine.Task → Machine.Task) (hf : ∀ t, (f t).id = t.id) :
    (s.modTask id f).task id = (s.task id).map f := by
  unfold State.task State.modTask
  simp only
  induction s.so.tasks with
  | nil => rfl
  | cons t ts ih =>
    by_cases h : t.id = id
    · simp [h, hf]
    · simp [h, ih]

/-- An outcome formed for an accepted envelope's task. -/
theorem setOutcome_hasOutcome {s : State} {id st r : Nat} {u : Machine.Task} (hu : s.task id = some u) (hs : u.st = .inService) :
    HasOutcome (s.setOutcome id st r) id st r := by
  refine ⟨{ u with outcome := some (st, r) }, ?_, hs, rfl⟩
  unfold State.setOutcome
  rw [modTask_task _ _ _ (by intro _; rfl), hu]
  rfl

end Sys2Proof.Machine
end

