-- ==== Sys2Proof/Laws/Events.lean ====
section
/-! SUPPORT. What a fault and an event may touch, said once: everything beyond a command's own effect lies within `SameButEvents`. -/

namespace Sys2Proof.Machine

theorem sameEvents_refl (s : State) : SameButEvents s s := rfl

theorem sameEvents_trans {s t u : State} (h : SameButEvents s t) (k : SameButEvents t u) : SameButEvents s u := by
  unfold SameButEvents at *
  cases s; cases t; cases u
  simp_all

/-- A fold whose every turn stays within what events touch does so too. -/
theorem sameEvents_foldl {α : Type} (f : State → α → State) (hf : ∀ s a, SameButEvents s (f s a)) (l : List α) (s : State) :
    SameButEvents s (l.foldl f s) := by
  induction l generalizing s with
  | nil => rfl
  | cons a l ih => exact sameEvents_trans (hf s a) (ih _)

theorem sameEvents_syncSleep (s : State) : SameButEvents s s.syncSleep := by
  refine sameEvents_foldl _ (fun s g => ?_) _ _
  dsimp only
  repeat' split
  all_goals rfl

theorem sameEvents_noteStatus (s : State) : SameButEvents s s.noteStatus := by
  unfold State.noteStatus
  split <;> rfl

theorem sameEvents_mark (s : State) (stream source t : Nat) : SameButEvents s (s.mark stream source t) := by
  unfold State.mark State.devPush
  dsimp only
  repeat' split
  all_goals rfl

theorem sameEvents_entryWritten (s : State) (k r : Nat) (b : Bool) : SameButEvents s (s.entryWritten k r b) := by
  rw [entryWritten_frame]
  rfl

theorem sameEvents_writeEvent (s : State) (code arg detail : Nat) : SameButEvents s (s.writeEvent code arg detail) := by
  unfold State.writeEvent
  exact sameEvents_trans (by rfl) (sameEvents_entryWritten _ 0 3 false)

theorem sameEvents_flushLost (s : State) : SameButEvents s s.flushLost := by
  unfold State.flushLost
  split
  · exact sameEvents_trans (sameEvents_writeEvent s _ _ _) rfl
  · rfl

theorem sameEvents_tryEvent (s : State) (code arg detail : Nat) : SameButEvents s (s.tryEvent code arg detail).1 := by
  unfold State.tryEvent
  dsimp only
  split
  · exact sameEvents_trans (sameEvents_flushLost s) (sameEvents_writeEvent _ _ _ _)
  · exact sameEvents_trans (sameEvents_flushLost s) rfl

theorem sameEvents_ite {c : Prop} [Decidable c] {s a b : State} (ha : SameButEvents s a) (hb : SameButEvents s b) :
    SameButEvents s (if c then a else b) := by
  split
  · exact ha
  · exact hb

/-- One assertion of a source stays within what events touch. -/
theorem sameEvents_assertRaw (s : State) (n d : Nat) (inj : Bool) : SameButEvents s (s.assertRaw n d inj).1 := by
  unfold State.assertRaw
  extract_lets x starts fresh running y s1 s2 e f s3 s4
  have h1 : SameButEvents s s1 := rfl
  have h2 : SameButEvents s s2 := sameEvents_ite (sameEvents_trans h1 (sameEvents_mark _ _ _ _)) h1
  have h3 : SameButEvents s s3 := sameEvents_ite (sameEvents_trans h2 rfl) h2
  have h4 : SameButEvents s s4 :=
    sameEvents_trans (sameEvents_ite (sameEvents_trans h3 (sameEvents_syncSleep _)) h3) (sameEvents_noteStatus _)
  split
  · exact sameEvents_trans h4 (sameEvents_tryEvent _ _ _ _)
  · exact h4

/-- A fault stays within what events touch, the loss of its event included. -/
theorem sameEvents_fault (s : State) (n d : Nat) : SameButEvents s (s.fault n d) := by
  unfold State.fault State.faultInj
  dsimp only
  split
  · exact sameEvents_trans (sameEvents_assertRaw s n d false) (sameEvents_assertRaw _ 79 0 false)
  · exact sameEvents_assertRaw s n d false

/-- An event stays within what events touch. -/
theorem sameEvents_event (s : State) (code arg detail : Nat) : SameButEvents s (s.event code arg detail) := by
  unfold State.event
  dsimp only
  split
  · exact sameEvents_trans (sameEvents_tryEvent s code arg detail) (sameEvents_fault _ 79 0)
  · exact sameEvents_tryEvent s code arg detail

end Sys2Proof.Machine
end

