-- ==== Sys2Proof/Machine/Balls.lean ====
section
/-! DEFINITION. The ball grid of the package: which ball carries which signal, rail or ground (R468 to R471, Tables 22.2 to 22.6). -/

namespace Sys2Proof.Machine

/-- A ball of a channel's line (Table 22.3). -/
inductive LineSignal where
  | dh (neg : Bool)
  | de (neg : Bool)
  | ch (neg : Bool)
  | cl (neg : Bool)
  deriving DecidableEq, Repr

/-- A ball of a memory channel (Table 22.5). -/
inductive MemSignal where
  | dqs (sub k : Nat) (neg : Bool)
  | dck (d : Nat) (neg : Bool)
  | dq (sub b : Nat)
  | ca (sub i : Nat)
  | par (sub : Nat)
  | cs (sub d r : Nat)
  | drst
  | alert
  deriving DecidableEq, Repr

/-- A signal ball of the centre (Table 22.5). -/
inductive CentreSignal where
  | couTx (p lane : Nat) (neg : Bool)
  | couRx (p lane : Nat) (neg : Bool)
  | fclkIn (p : Nat) (neg : Bool)
  | fclkOut (p : Nat) (neg : Bool)
  | pcieTx (lane : Nat) (neg : Bool)
  | pcieRx (lane : Nat) (neg : Bool)
  | pcieRefclk (neg : Bool)
  | perst
  | clkreq
  | wake
  | refclk (neg : Bool)
  | refclkOut (neg : Bool)
  | syncIn (neg : Bool)
  | syncOut (neg : Bool)
  | trigIn (i : Nat) (neg : Bool)
  | trigOut (i : Nat) (neg : Bool)
  | ppsIn
  | ppsOut
  | todIn
  | todOut
  | ocxoReady
  | evt (i : Nat)
  | vrefChk
  | senseRtn
  | rswing
  | rref
  | peSclk (g : Nat)
  | peMosi (g : Nat)
  | peCs (g : Nat)
  | peAlert (g : Nat)
  | sense (i : Nat)
  | dimmScl
  | dimmSda
  | smbScl
  | smbSda
  | norSclk
  | norCs
  | norIo (i : Nat)
  | tck
  | tms
  | tdi
  | tdo
  | trst
  | strap (i : Nat)
  | por
  | faultN
  | alertN
  | thermN
  deriving DecidableEq, Repr

/-- The supply rails (Table 22.6). -/
inductive Rail where
  | core
  | sram
  | vddaCh
  | vddioCh
  | vddq
  | phy
  | pll
  | adc
  | aux
  deriving DecidableEq, Repr

inductive Ball where
  | chan (c : Nat) (sig : LineSignal)
  | mem (c : Nat) (sig : MemSignal)
  | centre (sig : CentreSignal)
  | power (rail : Rail)
  | reserved
  | vss
  deriving DecidableEq, Repr

/-- The ball at depth i of a channel's line; every third is VSS, from the first on (Table 22.3). -/
def lineBall (c i : Nat) : Ball :=
  match i with
  | 1 => .chan c (.dh false)
  | 2 => .chan c (.dh true)
  | 4 => .chan c (.de false)
  | 5 => .chan c (.de true)
  | 7 => .chan c (.ch false)
  | 8 => .chan c (.ch true)
  | 10 => .chan c (.cl false)
  | 11 => .chan c (.cl true)
  | _ => .vss

/-- Row and column of the ball at depth i of channel c (Table 22.4). -/
def channelBall (c i : Nat) : Nat × Nat :=
  let q := c / 8 % 4
  let j := c % 8
  match c / 32 with
  | 0 => (58 - i, 15 + 8 * q + j)
  | 1 => (44 - 8 * q - j, 58 - i)
  | 2 => (1 + i, 44 - 8 * q - j)
  | _ => (15 + 8 * q + j, 1 + i)

/-- The channel and depth of a ball of a channel group's block (R470). -/
def channelAt (row col : Nat) : Option (Nat × Nat) :=
  if 47 ≤ row ∧ 15 ≤ col ∧ col ≤ 46 then some (col - 15, 58 - row)
  else if 47 ≤ col ∧ 13 ≤ row ∧ row ≤ 44 then some (32 + (44 - row), 58 - col)
  else if row ≤ 12 ∧ 13 ≤ col ∧ col ≤ 44 then some (64 + (44 - col), row - 1)
  else if col ≤ 12 ∧ 15 ≤ row ∧ row ≤ 46 then some (96 + (row - 15), col - 1)
  else none

/-- A rectangle of the grid: first row and column, rows and columns. -/
structure Rect where
  row : Nat
  col : Nat
  rows : Nat
  cols : Nat
  deriving DecidableEq, Repr

def Rect.has (r : Rect) (row col : Nat) : Bool :=
  decide (r.row ≤ row) && decide (row < r.row + r.rows) && decide (r.col ≤ col) && decide (col < r.col + r.cols)

/-- Position number in a rectangle, row by row (R471). -/
def Rect.pos (r : Rect) (row col : Nat) : Nat := (row - r.row) * r.cols + (col - r.col)

/-- Parts A and B of a memory channel's region (Table 22.2). -/
def memRegion (c : Nat) : Rect × Rect :=
  match c with
  | 0 => (⟨47, 1, 12, 14⟩, ⟨15, 13, 32, 2⟩)
  | 1 => (⟨45, 47, 14, 12⟩, ⟨45, 15, 2, 32⟩)
  | 2 => (⟨1, 45, 12, 14⟩, ⟨13, 45, 32, 2⟩)
  | _ => (⟨1, 1, 14, 12⟩, ⟨13, 13, 2, 32⟩)

def centreRegion : Rect := ⟨15, 15, 30, 30⟩

/-- The signal at position t of a list of n signals: every third position is VSS, and so is an odd list's last (R471). -/
def listSignal (n t : Nat) : Option Nat := if t % 3 = 2 ∨ n ≤ t - t / 3 then none else some (t - t / 3)

/-- The i-th signal of a memory channel's list (Table 22.5). -/
def memSignal (i : Nat) : MemSignal :=
  let neg := i % 2 == 1
  if i < 40 then .dqs (i / 20) (i / 2 % 10) neg
  else if i < 44 then .dck ((i - 40) / 2) neg
  else if i < 124 then .dq ((i - 44) / 40) ((i - 44) % 40)
  else if i < 140 then (if (i - 124) % 8 = 7 then .par ((i - 124) / 8) else .ca ((i - 124) / 8) ((i - 124) % 8))
  else if i < 148 then .cs ((i - 140) / 4) ((i - 140) / 2 % 2) ((i - 140) % 2)
  else if i = 148 then .drst
  else .alert

/-- The i-th signal of the Courier's list: of each port TX, RX, FCLK_IN and FCLK_OUT. -/
def couSignal (i : Nat) : CentreSignal :=
  let p := i / 20
  let k := i % 20 / 2
  let neg := i % 2 == 1
  if k < 4 then .couTx p k neg else if k < 8 then .couRx p (k - 4) neg else if k = 8 then .fclkIn p neg else .fclkOut p neg

/-- The i-th signal of the PCIe list. -/
def pcieSignal (i : Nat) : CentreSignal :=
  let neg := i % 2 == 1
  if i < 16 then .pcieTx (i / 2) neg
  else if i < 32 then .pcieRx (i / 2 - 8) neg
  else if i < 34 then .pcieRefclk neg
  else if i = 34 then .perst
  else if i = 35 then .clkreq
  else .wake

/-- The i-th signal of the list of references, time, triggers, event lines and analogue references. -/
def timeSignal (i : Nat) : CentreSignal :=
  let neg := i % 2 == 1
  if i < 2 then .refclk neg
  else if i < 4 then .refclkOut neg
  else if i < 6 then .syncIn neg
  else if i < 8 then .syncOut neg
  else if i < 24 then .trigIn ((i - 8) / 2) neg
  else if i < 40 then .trigOut ((i - 24) / 2) neg
  else if 45 ≤ i ∧ i < 53 then .evt (i - 45)
  else
    match i with
    | 40 => .ppsIn
    | 41 => .ppsOut
    | 42 => .todIn
    | 43 => .todOut
    | 44 => .ocxoReady
    | 53 => .vrefChk
    | 54 => .senseRtn
    | 55 => .rswing
    | _ => .rref

/-- The i-th signal of the list of PE control ports and SENSE inputs. -/
def peSignal (i : Nat) : CentreSignal :=
  if 64 ≤ i then .sense (i - 64)
  else
    match i % 4 with
    | 0 => .peSclk (i / 4)
    | 1 => .peMosi (i / 4)
    | 2 => .peCs (i / 4)
    | _ => .peAlert (i / 4)

/-- The i-th signal of the management list. -/
def mgmtSignal (i : Nat) : CentreSignal :=
  if 6 ≤ i ∧ i < 10 then .norIo (i - 6)
  else if 15 ≤ i ∧ i < 23 then .strap (i - 15)
  else
    match i with
    | 0 => .dimmScl
    | 1 => .dimmSda
    | 2 => .smbScl
    | 3 => .smbSda
    | 4 => .norSclk
    | 5 => .norCs
    | 10 => .tck
    | 11 => .tms
    | 12 => .tdi
    | 13 => .tdo
    | 14 => .trst
    | 23 => .por
    | 24 => .faultN
    | 25 => .alertN
    | _ => .thermN

/-- The n-th power ball of the centre (Table 22.5). -/
def centrePower (n : Nat) : Rail :=
  if n < 200 then .core
  else if n < 232 then .sram
  else if n < 296 then .vddaCh
  else if n < 360 then .vddioCh
  else if n < 392 then .phy
  else if n < 398 then .pll
  else if n < 402 then .adc
  else .aux

/-- Position k of a memory channel's region. -/
def memBall (c k : Nat) : Ball :=
  if k < 225 then ((listSignal 150 k).map (fun i => Ball.mem c (memSignal i))).getD .vss
  else if k < 232 then .power .vddq
  else .vss

/-- Position k of the centre: five lists, the power balls, the reserved ones, VSS. -/
def centreBall (k : Nat) : Ball :=
  let put := fun (f : Nat → CentreSignal) (n first : Nat) => ((listSignal n (k - first)).map (fun i => Ball.centre (f i))).getD .vss
  if k < 120 then put couSignal 80 0
  else if k < 177 then put pcieSignal 37 120
  else if k < 264 then put timeSignal 57 177
  else if k < 408 then put peSignal 96 264
  else if k < 450 then put mgmtSignal 27 408
  else if k < 860 then .power (centrePower (k - 450))
  else if k < 868 then .reserved
  else .vss

/-- The ball at a row and column of the grid, each 1 to 58 (R469). -/
def ballAt (row col : Nat) : Ball :=
  match channelAt row col with
  | some (c, i) => lineBall c i
  | none =>
    match (List.range 4).find? (fun c => (memRegion c).1.has row col || (memRegion c).2.has row col) with
    | some c =>
      let (a, b) := memRegion c
      memBall c (if a.has row col then a.pos row col else a.rows * a.cols + b.pos row col)
    | none => centreBall (centreRegion.pos row col)

end Sys2Proof.Machine
end

