-- ==== Sys2Proof/Machine/Figures.lean ====
section
/-! DEFINITION. The figures of placement that the state decides: the terms of Table 2.10 for a channel's edges as its calibration,
temperature and supplies stand, and the coherent figure (R51, R52, R374, R474). -/

namespace Sys2Proof.Machine

/-- How far a group's die temperature lies from its last full calibration's, in 1/64 °C. -/
def tempShift (x : Group) : Nat := (groupMean x - x.calTemp).natAbs

/-- The conditions without which a channel's edges have no bound: a valid internal calibration, neither CAL_OVERDUE nor STALE, within
CAL_DT, supplies within their ranges, Tj 0 to 105 °C (R51, R474). -/
def State.hasFigure (s : State) (c : Nat) : Bool :=
  let x := s.group (c / 8)
  x.phases.getLsbD 0 && !isOverdue x && !x.isStale && decide ((tempShift x : Int) ≤ s.calDt) && s.supplyLost.isNone
    && decide (0 ≤ s.boot.thermTemp) && decide (s.boot.thermTemp ≤ 105)

/-- The temperature term of a group, in 0.5 fs: on the replica with what its trims lag, on the thermal model, or untracked at 0.8 ps
per °C (Table 2.10, R374). -/
def State.tempTerm (s : State) (g : Nat) : Nat :=
  let x := s.group g
  if !s.deviceMode.testBit mBC then 1600 * tempShift x / 64
  else (if x.replicaOut then 3200 else 1200) + (if x.trackLag then 125 * x.lag else 0)

/-- The terms of Table 2.10 that bound the placement of a channel's edges and strobes, added, in 0.5 fs; `bit` for a bit edge or strobe
of serial bursts. None where no bound holds. -/
def State.placementTerms (s : State) (c : Nat) (bit : Bool) : Option Nat :=
  if s.hasFigure c then some (1100 + 60 + 1000 + s.tempTerm (c / 8) + 600 + (if bit then 1800 else 800) + 200) else none

/-- A site's edges keep the ±4 ps of R52 across devices as far as this device goes: forwarded mode, CS on, SYNC aligned, not degraded, and
each of its channels within R51. -/
def State.keepsCoherence (s : State) (k : Nat) : Bool :=
  s.forwarded && siteOn s.cv k mCS && s.tree.aligned && !s.ptu.degraded && (s.siteChans k).all s.hasFigure

end Sys2Proof.Machine
end

