-- ==== Sys2Proof/WellFormed.lean ====
section
/-! DEFINITION. Which commands can be sent: an operand fits the bits its field has (Tables 11.7, 11.8, 13.6, 13.11, 14.1), and what an
event carries is what its sender can carry. A well-formed command may still be refused by the block: a value outside an opcode's range
completes with BAD_ENVELOPE (R248). -/

namespace Sys2Proof

/-- A number fits `n` bits. -/
def fits (n v : Nat) : Bool := decide (v < 2 ^ n)

/-- A signed number fits `n` bits. -/
def fitsInt (n : Nat) (v : Int) : Bool := decide (-(2 ^ (n - 1) : Int) ≤ v) && decide (v < (2 ^ (n - 1) : Int))

/-- The eight 32-bit arguments of CLERK_CALL and CSP_START. -/
def argsFit (args : List Nat) : Bool := args.length == 8 && args.all (fits 32)

/-- A write within a ring set's doorbell page, of a size that a function can send. -/
def doorFits (d : DoorWrite) : Bool := decide (d.offset + d.size ≤ 4096) && (d.size == 1 || d.size == 2 || d.size == 4 || d.size == 8)

/-- Well-formed commands. -/
def Instr.wf : Instr → Bool
  | .stageWrite _ kind count index addr bytes => fits 8 kind && fits 16 count && fits 32 index && fits 64 addr && fits 32 bytes
  | .stageRead _ form kind sect index count bytes addr =>
    fits 8 form && fits 8 kind && fits 8 sect && fits 32 index && fits 32 count && fits 32 bytes && fits 64 addr
  | .check _ budget addr entries => fits 8 budget && fits 64 addr && fits 32 entries
  | .commit _ form budget site mask entry secs tu =>
    fits 8 form && fits 8 budget && fits 8 site && fits 32 mask && fits 16 entry && fits 48 secs && fits 43 tu
  | .systemCommit _ budget mask secs tu => fits 8 budget && fits 32 mask && fits 48 secs && fits 43 tu
  | .patternLoad _ base addr => fits 40 base && fits 64 addr
  | .patternBroadcast _ base addr => fits 40 base && fits 64 addr
  | .seal _ first countM1 => fits 16 first && fits 16 countM1
  | .memCopy _ src dst lines => fits 40 src && fits 40 dst && fits 40 lines
  | .run _ site start input _ seg secs tu => fits 8 site && fits 8 start && fits 8 input && fits 16 seg && fits 48 secs && fits 43 tu
  | .stop _ site => fits 8 site
  | .arm _ site seg => fits 8 site && fits 16 seg
  | .armHostRequest _ site => fits 8 site
  | .streamOpen _ stream => fits 8 stream
  | .streamClose _ stream addr => fits 8 stream && fits 64 addr
  | .streamMark _ stream _ _ pulse => fits 8 stream && fits 16 pulse
  | .measure _ conv mux gain filter count _ _ _ _ addr =>
    fits 8 conv && fits 8 mux && fits 8 gain && fits 8 filter && fits 32 count && fits 64 addr
  | .calibrate _ groups phases _ _ => fits 16 groups && fits 3 phases
  | .eyeSurvey _ site levels _ dwell channels oFirst oLast oStep settle bufAddr paramAddr =>
    fits 8 site && fits 8 levels && fits 32 dwell && fits 128 channels && fitsInt 32 oFirst && fitsInt 32 oLast && fits 32 oStep
      && fits 16 settle && fits 64 bufAddr && fits 64 paramAddr
  | .delay _ ticks => fits 32 ticks
  | .fence _ scope => fits 8 scope
  | .cancel _ byFlow key => fits 8 byFlow && fits 16 key
  | .clerkCall _ entry args => fits 16 entry && argsFit args
  | .cspStart _ entry args => fits 8 entry && argsFit args
  | .nvmWrite _ region offset bytes addr => fits 8 region && fits 32 offset && fits 32 bytes && fits 64 addr
  | .nvmRead _ region offset bytes addr => fits 8 region && fits 32 offset && fits 32 bytes && fits 64 addr
  | .imageStage _ kind bytes addr => fits 8 kind && fits 32 bytes && fits 64 addr
  | .imageActivate _ kind => fits 8 kind
  | .attest _ nonce addr bytes => fits 256 nonce && fits 64 addr && fits 32 bytes
  | .doorbellCommandProducer d _ _ => doorFits d
  | .doorbellCompletionConsumer d _ _ => doorFits d
  | .doorbellStreamProducer d _ _ => doorFits d
  | .doorbellEventConsumer d _ _ => doorFits d
  | .pcieLinkTrained rate width _ => rate != 0 && (width == 1 || width == 2 || width == 4 || width == 8)
  | .spillRead line _ => decide (line < 64)
  | .cspOut _ lanes => fits 16 lanes
  | .cspLoop count length => fits 32 count && fits 32 length
  | .cspWait records cycles => fits 32 records && fits 32 cycles
  | .cspFld _ _ _ width _ => decide (1 ≤ width) && decide (width ≤ 64)
  | .credit _ _ count => fits 8 count.val
  | .laneFailure _ _ _ seen => decide (seen.headers ≤ 64)
  | .portStateAdvance _ _ _ _ w => w.numbers.length == 4 && w.headers.length == 4 && w.skew.length == 4
  | .capability _ version role clock _ _ _ _ _ => fits 8 version && fits 8 role && fits 8 clock
  | .discover _ hops _ _ => decide (hops ≤ 10)
  | .answer _ _ _ _ _ _ _ hops flight => decide (hops ≤ 10) && fits 24 flight
  | .assign _ _ place lsys _ => decide (place.hops ≤ 10) && fits 22 lsys
  | .matchTable _ _ h _ => fits 22 h
  | .tSync _ _ t1 t2 => fits 96 t1 && fits 96 t2
  | .tReq _ _ t3 t4 => fits 96 t3 && fits 96 t4
  | .tResp _ _ t4 asym _ _ _ => fits 96 t4 && fitsInt 16 asym
  | .second _ secs _ _ _ _ step => fits 48 secs && fitsInt 64 step
  | .prepare secs tu _ => fits 48 secs && fits 43 tu
  | .refuse _ code => fits 16 code
  | .patternData _ base _ bytes _ => fits 40 base && decide (bytes.length ≤ 236)
  | .bootData _ _ bytes _ => decide (bytes.length ≤ 236)
  | .skewCalibration _ pathTu _ => fits 24 pathTu
  | .dimmSensorRead temps => temps.length == 8
  | .clerkMicroword _ _ stall dataErrs checkErrs => fits 32 stall && decide (dataErrs ≤ 128) && decide (checkErrs ≤ 16)
  | .controlStoreScrub foundA foundB => (foundA ++ foundB).all (fun e => decide (e.2 ≤ 144))
  | .readClear addr _ => fits 20 addr && addr % 4 == 0
  | .registerWrite _ addr size _ => decide (addr < 2 ^ 20 + 2 ^ 12) && (size == 1 || size == 2 || size == 4 || size == 8)
  | _ => true

end Sys2Proof
end

