-- ==== Sys2Proof/Tests/Slice0.lean ====
section
/-! SUPPORT. The model's own tests. First an ill-formed command for each check of well-formedness; then, for each statement with
hypotheses, states and operands that meet them (`witness_<statement>`); then single steps against the spec's numbers. -/

namespace Sys2Proof.Tests

open Sys2Proof Sys2Proof.Machine

set_option Elab.async false

/-! ### States -/

/-- A device in READY whose ring set 0 is enabled. -/
def ready : State :=
  let s := { State.reset with boot := { State.reset.boot with stage := 5 } }
  s.setRs 0 { s.rs 0 with st := .enabled }

/-- The same with trained memory of 2^20 lines. -/
def trainedDev : State := { ready with mem := { ready.mem with state := 2, capacity := 1048576 } }

/-- An envelope of ring set 0. -/
def h0 : Hdr := ⟨0, 3, false, false, 0, 7⟩

/-- A QUIET one. -/
def hq : Hdr := { h0 with quiet := true }

/-- One of flow 5. -/
def hf : Hdr := { h0 with flow := 5 }

/-- A Postmaster in READY whose ring set 0 is enabled. -/
def postmaster : State := { ready with boot := { ready.boot with straps := 1 } }

/-- A state whose office holds one task in service. -/
def busy (s : State) (h : Hdr) (op : Op) : State := s.addTask (taskOf s h op)

/-- The state a step leads to. -/
def after (s : State) (c : Instr) : State := match exec c s with
  | .next t => t
  | _ => s

/-- The step answers a next state. -/
def goesOn (s : State) : Bool := match step s with
  | .next _ => true
  | _ => false

/-! ### Host memory with something in it -/

/-- Host memory that holds `n` bytes of a number from an address. -/
def cells (a : Nat) : Nat → Nat → List Host.Cell
  | 0, _ => []
  | n + 1, v => if BitVec.ofNat 8 v = 0 then cells (a + 1) n (v / 256) else (a, BitVec.ofNat 8 v) :: cells (a + 1) n (v / 256)

theorem tget_cells_below (a n v k : Nat) (h : k < a) : tget (0 : Byte) (cells a n v) k = 0 := by
  induction n generalizing a v with
  | zero => rfl
  | succ n ih =>
    rw [cells]
    split
    · exact ih _ _ (by omega)
    · rw [tget, if_neg (by omega)]
      exact ih _ _ (by omega)

theorem readByte_cells (a n v i : Nat) (h : i < n) : readByte (cells a n v) (a + i) = BitVec.ofNat 8 (v / 256 ^ i) := by
  induction n generalizing a v i with
  | zero => omega
  | succ n ih =>
    cases i with
    | zero =>
      rw [cells, Nat.add_zero, Nat.pow_zero, Nat.div_one]
      split
      next h0 => rw [h0]; exact tget_cells_below _ _ _ _ (by omega)
      next h0 => simp [readByte, tget]
    | succ i =>
      have hs : a + (i + 1) = a + 1 + i := by omega
      have hi := ih (a + 1) (v / 256) i (by omega)
      rw [Nat.div_div_eq_div_mul, ← Nat.pow_succ', ← hs] at hi
      rw [cells]
      split
      · exact hi
      · rw [readByte, tget, if_neg (by omega)]
        exact hi

/-- Such an image reads as its number. -/
theorem hostImage_cells (a n v off k : Nat) (h : off + k ≤ n) : hostImage (cells a n v) a off k = v / 256 ^ off % 256 ^ k := by
  rw [hostImage]
  induction k generalizing off with
  | zero => simp [readLE, Nat.mod_one]
  | succ k ih =>
    rw [readLE, readByte_cells a n v off (by omega), show a + off + 1 = a + (off + 1) by omega, ih (off + 1) (by omega),
      BitVec.toNat_ofNat, Nat.pow_succ' (n := k), Nat.mod_mul, Nat.div_div_eq_div_mul, ← Nat.pow_succ]

/-- A pattern image of three lines with one region of one vector: header, region table and line, franks by R73. -/
def imageNum : Nat :=
  ([0x000000000000000030c25990000000000000000000000003000000000000000100000000000011220000000149505356] ++
    [0x0000000000000000a211ce9c000000000000000100000001000000000000000291438e47000000000000000000000000] ++
    [0x50000000000000000000000000000000000000000000000000000000000000000]).foldr (fun d n => d + 2 ^ 384 * n) 0

/-- A signature by R439, made for the key below over the header below. -/
def signature : Nat :=
  ([0x13aff358a07fb772c51417df535ba013544b6f9e1b9b40a4abfff409238cbf6a97c64015d2d22ae64ebb73f2094a9a63] ++
    [0xda1593c2bb904ca393136570cc037ef4073de22fd1f99977400ea57a1b167ed0343373cb91df3d325422362129aa897f] ++
    [0xcff5eed83bf932250eabd81712c1f894d69c0596752cf3ae0655683d16f936eb7474ef2eea80754033fd7f68fc18de48] ++
    [0x6dd86f16bf06f76cfd479df17af16c74aec0944f34ec7eadb90aae9b45ce26a80cb3ad81202544e20af720743260da64] ++
    [0x3caca84fdaf948f346d977041d9bbba62df3e027742737780339b5de76217365eb8ea5604f77aa2c1c9daf643f55de51] ++
    [0x96a6621c5b297cee31627c1cb8cb3f8a37f9b9f2ed17ef6555baa1bf23eaefcd94e0d87ed8d39e2c644ff25fe6f5ad0b] ++
    [0xb16e4e2212d40bcf6932d13ac3ef474af5e95ee3806ca2b93acebec010f7ebd47d8c562f26c9e4ea95f543a11d1a5318] ++
    [0x7e1d987241d9437c4aa7e9b3d7e462522a46262a84c488d079f4a8d9d704bb5d1ebd2e573675748a41c35f612f0fc411]).foldr (fun d n => d + 2 ^ 384 * n) 0

/-- The first 64 bytes of a CSP image without payload, under root slot 2. -/
def imageHead : Nat :=
  ([0x55b852781b9995a44c939b64e441ae2724b96f99c8f4fb9a141cfc9842c4b0e30000000000000001000201024d474953]).foldr (fun d n => d + 2 ^ 384 * n) 0

/-- The key: the modulus of the signature. -/
def modulus : Nat := 2 ^ 3071 + 0x8f3

/-- The SHA-256 of the key, as OTP holds it. -/
def rootDigest : BitVec 256 := 0xaca007ebf3c70e58ea91d3f85f7d4e3094bef0ca9b42bcebe9d162b97fb817dd

/-- A device in READY with trained memory and the pattern image at 0x1000 of host memory. -/
def loaded : State := { trainedDev with host := cells 0x1000 192 imageNum }

/-- The CSP image: its header with the key and the signature. -/
def cspNum : Nat := imageHead + 2 ^ 512 * modulus + 2 ^ 3584 * signature

/-- A device in READY with an image at 0x2000 of host memory, root slot 2 programmed. -/
def imagedAs (v : Nat) : State :=
  { ready with
    host := cells 0x2000 832 v
    boot := { ready.boot with programmed := 0b0111, roots := tset 0 ready.boot.roots 2 rootDigest } }

/-- Such a device with the CSP image. -/
def imaged : State := imagedAs cspNum

theorem imagedAs_reads (v off k : Nat) (h : off + k ≤ 832) :
    hostImage (imagedAs v).host 0x2000 off k = v / 256 ^ off % 256 ^ k := hostImage_cells 0x2000 832 v off k h

theorem imaged_reads (off k : Nat) (h : off + k ≤ 832) :
    hostImage imaged.host 0x2000 off k = cspNum / 256 ^ off % 256 ^ k := imagedAs_reads cspNum off k h

/-! ### Well-formedness refuses what cannot be sent, one check at a time -/

theorem illFormed_stageWrite :
    Instr.wf (.stageWrite h0 0 0 0 0 0) = true ∧ Instr.wf (.stageWrite h0 256 0 0 0 0) = false
      ∧ Instr.wf (.stageWrite h0 0 65536 0 0 0) = false ∧ Instr.wf (.stageWrite h0 0 0 4294967296 0 0) = false
      ∧ Instr.wf (.stageWrite h0 0 0 0 18446744073709551616 0) = false ∧ Instr.wf (.stageWrite h0 0 0 0 0 4294967296) = false := by decide +kernel

theorem illFormed_stageRead :
    Instr.wf (.stageRead h0 0 0 0 0 0 0 0) = true ∧ Instr.wf (.stageRead h0 256 0 0 0 0 0 0) = false
      ∧ Instr.wf (.stageRead h0 0 256 0 0 0 0 0) = false ∧ Instr.wf (.stageRead h0 0 0 256 0 0 0 0) = false
      ∧ Instr.wf (.stageRead h0 0 0 0 4294967296 0 0 0) = false ∧ Instr.wf (.stageRead h0 0 0 0 0 4294967296 0 0) = false
      ∧ Instr.wf (.stageRead h0 0 0 0 0 0 4294967296 0) = false ∧ Instr.wf (.stageRead h0 0 0 0 0 0 0 18446744073709551616) = false := by decide +kernel

theorem illFormed_check :
    Instr.wf (.check h0 0 0 0) = true ∧ Instr.wf (.check h0 256 0 0) = false ∧ Instr.wf (.check h0 0 18446744073709551616 0) = false
      ∧ Instr.wf (.check h0 0 0 4294967296) = false := by decide +kernel

theorem illFormed_commit :
    Instr.wf (.commit h0 0 0 0 0 0 0 0) = true ∧ Instr.wf (.commit h0 256 0 0 0 0 0 0) = false
      ∧ Instr.wf (.commit h0 0 256 0 0 0 0 0) = false ∧ Instr.wf (.commit h0 0 0 256 0 0 0 0) = false
      ∧ Instr.wf (.commit h0 0 0 0 4294967296 0 0 0) = false ∧ Instr.wf (.commit h0 0 0 0 0 65536 0 0) = false
      ∧ Instr.wf (.commit h0 0 0 0 0 0 281474976710656 0) = false ∧ Instr.wf (.commit h0 0 0 0 0 0 0 8796093022208) = false := by decide +kernel

theorem illFormed_systemCommit :
    Instr.wf (.systemCommit h0 0 0 0 0) = true ∧ Instr.wf (.systemCommit h0 256 0 0 0) = false
      ∧ Instr.wf (.systemCommit h0 0 4294967296 0 0) = false ∧ Instr.wf (.systemCommit h0 0 0 281474976710656 0) = false
      ∧ Instr.wf (.systemCommit h0 0 0 0 8796093022208) = false := by decide +kernel

theorem illFormed_patternLoad :
    Instr.wf (.patternLoad h0 0 0) = true ∧ Instr.wf (.patternLoad h0 1099511627776 0) = false
      ∧ Instr.wf (.patternLoad h0 0 18446744073709551616) = false := by decide +kernel

theorem illFormed_patternBroadcast :
    Instr.wf (.patternBroadcast h0 0 0) = true ∧ Instr.wf (.patternBroadcast h0 1099511627776 0) = false
      ∧ Instr.wf (.patternBroadcast h0 0 18446744073709551616) = false := by decide +kernel

theorem illFormed_seal :
    Instr.wf (.seal h0 0 0) = true ∧ Instr.wf (.seal h0 65536 0) = false ∧ Instr.wf (.seal h0 0 65536) = false := by decide +kernel

theorem illFormed_memCopy :
    Instr.wf (.memCopy h0 0 0 0) = true ∧ Instr.wf (.memCopy h0 1099511627776 0 0) = false
      ∧ Instr.wf (.memCopy h0 0 1099511627776 0) = false ∧ Instr.wf (.memCopy h0 0 0 1099511627776) = false := by decide +kernel

theorem illFormed_run :
    Instr.wf (.run h0 0 0 0 false 0 0 0) = true ∧ Instr.wf (.run h0 256 0 0 false 0 0 0) = false
      ∧ Instr.wf (.run h0 0 256 0 false 0 0 0) = false ∧ Instr.wf (.run h0 0 0 256 false 0 0 0) = false
      ∧ Instr.wf (.run h0 0 0 0 false 65536 0 0) = false ∧ Instr.wf (.run h0 0 0 0 false 0 281474976710656 0) = false
      ∧ Instr.wf (.run h0 0 0 0 false 0 0 8796093022208) = false := by decide +kernel

theorem illFormed_stop :
    Instr.wf (.stop h0 0) = true ∧ Instr.wf (.stop h0 256) = false := by decide +kernel

theorem illFormed_arm :
    Instr.wf (.arm h0 0 0) = true ∧ Instr.wf (.arm h0 256 0) = false ∧ Instr.wf (.arm h0 0 65536) = false := by decide +kernel

theorem illFormed_armHostRequest :
    Instr.wf (.armHostRequest h0 0) = true ∧ Instr.wf (.armHostRequest h0 256) = false := by decide +kernel

theorem illFormed_streamOpen :
    Instr.wf (.streamOpen h0 0) = true ∧ Instr.wf (.streamOpen h0 256) = false := by decide +kernel

theorem illFormed_streamClose :
    Instr.wf (.streamClose h0 0 0) = true ∧ Instr.wf (.streamClose h0 256 0) = false
      ∧ Instr.wf (.streamClose h0 0 18446744073709551616) = false := by decide +kernel

theorem illFormed_streamMark :
    Instr.wf (.streamMark h0 0 false false 0) = true ∧ Instr.wf (.streamMark h0 256 false false 0) = false
      ∧ Instr.wf (.streamMark h0 0 false false 65536) = false := by decide +kernel

theorem illFormed_measure :
    Instr.wf (.measure h0 0 0 0 0 0 false false false false 0) = true
      ∧ Instr.wf (.measure h0 256 0 0 0 0 false false false false 0) = false
      ∧ Instr.wf (.measure h0 0 256 0 0 0 false false false false 0) = false
      ∧ Instr.wf (.measure h0 0 0 256 0 0 false false false false 0) = false
      ∧ Instr.wf (.measure h0 0 0 0 256 0 false false false false 0) = false
      ∧ Instr.wf (.measure h0 0 0 0 0 4294967296 false false false false 0) = false
      ∧ Instr.wf (.measure h0 0 0 0 0 0 false false false false 18446744073709551616) = false := by decide +kernel

theorem illFormed_calibrate :
    Instr.wf (.calibrate h0 0 0 false false) = true ∧ Instr.wf (.calibrate h0 65536 0 false false) = false
      ∧ Instr.wf (.calibrate h0 0 8 false false) = false := by decide +kernel

theorem illFormed_eyeSurvey :
    Instr.wf (.eyeSurvey h0 0 0 false 0 0 0 0 0 0 0 0) = true ∧ Instr.wf (.eyeSurvey h0 256 0 false 0 0 0 0 0 0 0 0) = false
      ∧ Instr.wf (.eyeSurvey h0 0 256 false 0 0 0 0 0 0 0 0) = false
      ∧ Instr.wf (.eyeSurvey h0 0 0 false 4294967296 0 0 0 0 0 0 0) = false
      ∧ Instr.wf (.eyeSurvey h0 0 0 false 0 340282366920938463463374607431768211456 0 0 0 0 0 0) = false
      ∧ Instr.wf (.eyeSurvey h0 0 0 false 0 0 2147483648 0 0 0 0 0) = false
      ∧ Instr.wf (.eyeSurvey h0 0 0 false 0 0 0 (-2147483649) 0 0 0 0) = false
      ∧ Instr.wf (.eyeSurvey h0 0 0 false 0 0 0 0 4294967296 0 0 0) = false
      ∧ Instr.wf (.eyeSurvey h0 0 0 false 0 0 0 0 0 65536 0 0) = false
      ∧ Instr.wf (.eyeSurvey h0 0 0 false 0 0 0 0 0 0 18446744073709551616 0) = false
      ∧ Instr.wf (.eyeSurvey h0 0 0 false 0 0 0 0 0 0 0 18446744073709551616) = false := by decide +kernel

theorem illFormed_delay :
    Instr.wf (.delay h0 0) = true ∧ Instr.wf (.delay h0 4294967296) = false := by decide +kernel

theorem illFormed_fence :
    Instr.wf (.fence h0 0) = true ∧ Instr.wf (.fence h0 256) = false := by decide +kernel

theorem illFormed_cancel :
    Instr.wf (.cancel h0 0 0) = true ∧ Instr.wf (.cancel h0 256 0) = false ∧ Instr.wf (.cancel h0 0 65536) = false := by decide +kernel

theorem illFormed_clerkCall :
    Instr.wf (.clerkCall h0 0 [0, 0, 0, 0, 0, 0, 0, 0]) = true ∧ Instr.wf (.clerkCall h0 65536 [0, 0, 0, 0, 0, 0, 0, 0]) = false
      ∧ Instr.wf (.clerkCall h0 0 [0, 0, 0, 0, 0, 0, 0]) = false ∧ Instr.wf (.clerkCall h0 0 [4294967296, 0, 0, 0, 0, 0, 0, 0]) = false := by decide +kernel

theorem illFormed_cspStart :
    Instr.wf (.cspStart h0 0 [0, 0, 0, 0, 0, 0, 0, 0]) = true ∧ Instr.wf (.cspStart h0 256 [0, 0, 0, 0, 0, 0, 0, 0]) = false
      ∧ Instr.wf (.cspStart h0 0 [0, 0, 0, 0, 0, 0, 0, 0, 0]) = false
      ∧ Instr.wf (.cspStart h0 0 [0, 0, 0, 0, 0, 0, 0, 4294967296]) = false := by decide +kernel

theorem illFormed_nvmWrite :
    Instr.wf (.nvmWrite h0 0 0 0 0) = true ∧ Instr.wf (.nvmWrite h0 256 0 0 0) = false
      ∧ Instr.wf (.nvmWrite h0 0 4294967296 0 0) = false ∧ Instr.wf (.nvmWrite h0 0 0 4294967296 0) = false
      ∧ Instr.wf (.nvmWrite h0 0 0 0 18446744073709551616) = false := by decide +kernel

theorem illFormed_nvmRead :
    Instr.wf (.nvmRead h0 0 0 0 0) = true ∧ Instr.wf (.nvmRead h0 256 0 0 0) = false ∧ Instr.wf (.nvmRead h0 0 4294967296 0 0) = false
      ∧ Instr.wf (.nvmRead h0 0 0 4294967296 0) = false ∧ Instr.wf (.nvmRead h0 0 0 0 18446744073709551616) = false := by decide +kernel

theorem illFormed_imageStage :
    Instr.wf (.imageStage h0 0 0 0) = true ∧ Instr.wf (.imageStage h0 256 0 0) = false
      ∧ Instr.wf (.imageStage h0 0 4294967296 0) = false ∧ Instr.wf (.imageStage h0 0 0 18446744073709551616) = false := by decide +kernel

theorem illFormed_imageActivate :
    Instr.wf (.imageActivate h0 0) = true ∧ Instr.wf (.imageActivate h0 256) = false := by decide +kernel

theorem illFormed_attest :
    Instr.wf (.attest h0 0 0 0) = true
      ∧ Instr.wf (.attest h0 115792089237316195423570985008687907853269984665640564039457584007913129639936 0 0) = false
      ∧ Instr.wf (.attest h0 0 18446744073709551616 0) = false ∧ Instr.wf (.attest h0 0 0 4294967296) = false := by decide +kernel

theorem illFormed_pcieLinkTrained :
    Instr.wf (.pcieLinkTrained 1 8 false) = true ∧ Instr.wf (.pcieLinkTrained 0 8 false) = false
      ∧ Instr.wf (.pcieLinkTrained 1 3 false) = false := by decide +kernel

theorem illFormed_spillRead :
    Instr.wf (.spillRead 0 []) = true ∧ Instr.wf (.spillRead 64 []) = false := by decide +kernel

theorem illFormed_cspOut :
    Instr.wf (.cspOut 0 0) = true ∧ Instr.wf (.cspOut 0 65536) = false := by decide +kernel

theorem illFormed_cspLoop :
    Instr.wf (.cspLoop 0 0) = true ∧ Instr.wf (.cspLoop 4294967296 0) = false ∧ Instr.wf (.cspLoop 0 4294967296) = false := by decide +kernel

theorem illFormed_cspWait :
    Instr.wf (.cspWait 0 0) = true ∧ Instr.wf (.cspWait 4294967296 0) = false ∧ Instr.wf (.cspWait 0 4294967296) = false := by decide +kernel

theorem illFormed_cspFld :
    Instr.wf (.cspFld 0 0 0 1 false) = true ∧ Instr.wf (.cspFld 0 0 0 0 false) = false ∧ Instr.wf (.cspFld 0 0 0 65 false) = false := by decide +kernel

theorem illFormed_credit :
    Instr.wf (.credit 0 0 ⟨0, 0⟩) = true ∧ Instr.wf (.credit 0 0 ⟨256, 0⟩) = false := by decide +kernel

theorem illFormed_doorbell :
    Instr.wf (.doorbellCommandProducer ⟨0, 0, 4088, 8⟩ 0 0) = true ∧ Instr.wf (.doorbellCommandProducer ⟨0, 0, 4094, 4⟩ 0 0) = false
      ∧ Instr.wf (.doorbellCompletionConsumer ⟨0, 0, 0, 3⟩ 0 0) = false ∧ Instr.wf (.doorbellStreamProducer ⟨0, 0, 0, 16⟩ 0 0) = false
      ∧ Instr.wf (.doorbellEventConsumer ⟨0, 0, 4096, 1⟩ 0 0) = false := by decide +kernel

theorem illFormed_laneFailure :
    Instr.wf (.laneFailure 0 0 0 ⟨64, false⟩) = true ∧ Instr.wf (.laneFailure 0 0 0 ⟨65, false⟩) = false := by decide +kernel

theorem illFormed_portStateAdvance :
    let w : LaneWork := ⟨List.replicate 4 none, List.replicate 4 0, List.replicate 4 0⟩
    Instr.wf (.portStateAdvance 0 0 0 0 w) = true ∧ Instr.wf (.portStateAdvance 0 0 0 0 { w with numbers := [] }) = false
      ∧ Instr.wf (.portStateAdvance 0 0 0 0 { w with headers := [] }) = false ∧ Instr.wf (.portStateAdvance 0 0 0 0 { w with skew := [] }) = false := by
  decide +kernel

theorem illFormed_capability :
    Instr.wf (.capability 0 0 0 0 0 0 false 0 0) = true ∧ Instr.wf (.capability 0 256 0 0 0 0 false 0 0) = false
      ∧ Instr.wf (.capability 0 0 256 0 0 0 false 0 0) = false ∧ Instr.wf (.capability 0 0 0 256 0 0 false 0 0) = false := by decide +kernel

theorem illFormed_discover :
    Instr.wf (.discover 0 0 0 0) = true ∧ Instr.wf (.discover 0 11 0 0) = false := by decide +kernel

theorem illFormed_assign :
    Instr.wf (.assign 0 0 ⟨0, 0⟩ 0 0) = true ∧ Instr.wf (.assign 0 0 ⟨11, 0⟩ 0 0) = false ∧ Instr.wf (.assign 0 0 ⟨0, 0⟩ 4194304 0) = false := by
  decide +kernel

theorem illFormed_answer :
    Instr.wf (.answer 0 0 0 0 false 0 0 10 0) = true ∧ Instr.wf (.answer 0 0 0 0 false 0 0 11 0) = false
      ∧ Instr.wf (.answer 0 0 0 0 false 0 0 0 16777216) = false := by decide +kernel

theorem illFormed_matchTable :
    Instr.wf (.matchTable 0 0 0 false) = true ∧ Instr.wf (.matchTable 0 0 4194304 false) = false := by decide +kernel

theorem illFormed_tSync :
    Instr.wf (.tSync 0 0 0 0) = true ∧ Instr.wf (.tSync 0 0 79228162514264337593543950336 0) = false
      ∧ Instr.wf (.tSync 0 0 0 79228162514264337593543950336) = false := by decide +kernel

theorem illFormed_tReq :
    Instr.wf (.tReq 0 0 0 0) = true ∧ Instr.wf (.tReq 0 0 79228162514264337593543950336 0) = false
      ∧ Instr.wf (.tReq 0 0 0 79228162514264337593543950336) = false := by decide +kernel

theorem illFormed_tResp :
    Instr.wf (.tResp 0 0 0 0 false false 0) = true ∧ Instr.wf (.tResp 0 0 79228162514264337593543950336 0 false false 0) = false
      ∧ Instr.wf (.tResp 0 0 0 32768 false false 0) = false ∧ Instr.wf (.tResp 0 0 0 (-32769) false false 0) = false := by decide +kernel

theorem illFormed_second :
    Instr.wf (.second 0 0 0 0 false false 0) = true ∧ Instr.wf (.second 0 281474976710656 0 0 false false 0) = false
      ∧ Instr.wf (.second 0 0 0 0 false false 9223372036854775808) = false := by decide +kernel

theorem illFormed_prepare :
    Instr.wf (.prepare 0 0 0) = true ∧ Instr.wf (.prepare 281474976710656 0 0) = false ∧ Instr.wf (.prepare 0 8796093022208 0) = false := by decide +kernel

theorem illFormed_refuse :
    Instr.wf (.refuse 0 0) = true ∧ Instr.wf (.refuse 0 65536) = false := by decide +kernel

theorem illFormed_patternData :
    Instr.wf (.patternData 0 0 false [] false) = true ∧ Instr.wf (.patternData 0 1099511627776 false [] false) = false
      ∧ Instr.wf (.patternData 0 0 false (List.replicate 237 0) false) = false := by decide +kernel

theorem illFormed_bootData :
    Instr.wf (.bootData 0 0 [] false) = true ∧ Instr.wf (.bootData 0 0 (List.replicate 237 0) false) = false := by decide +kernel

theorem illFormed_skewCalibration :
    Instr.wf (.skewCalibration 0 0 0) = true ∧ Instr.wf (.skewCalibration 0 16777216 0) = false := by decide +kernel

theorem illFormed_dimmSensorRead :
    Instr.wf (.dimmSensorRead (List.replicate 8 none)) = true ∧ Instr.wf (.dimmSensorRead (List.replicate 7 none)) = false := by decide +kernel

theorem illFormed_clerkMicroword (op : ClerkOp) :
    Instr.wf (.clerkMicroword op false 0 128 16) = true ∧ Instr.wf (.clerkMicroword op false 4294967296 0 0) = false
      ∧ Instr.wf (.clerkMicroword op false 0 129 0) = false ∧ Instr.wf (.clerkMicroword op false 0 0 17) = false := by
  refine ⟨?_, ?_, ?_, ?_⟩ <;> rfl

theorem illFormed_controlStoreScrub :
    Instr.wf (.controlStoreScrub [] [(8191, 144)]) = true ∧ Instr.wf (.controlStoreScrub [(0, 145)] []) = false := by decide +kernel

theorem illFormed_readClear :
    Instr.wf (.readClear 0 0) = true ∧ Instr.wf (.readClear 1048576 0) = false ∧ Instr.wf (.readClear 2 0) = false := by decide +kernel

theorem illFormed_registerWrite :
    Instr.wf (.registerWrite 0 0 4 0) = true ∧ Instr.wf (.registerWrite 0 1052671 4 0) = true ∧ Instr.wf (.registerWrite 0 1052672 4 0) = false
      ∧ Instr.wf (.registerWrite 0 0 3 0) = false := by decide +kernel

/-! ### What the statements assume can be met: office and queue -/

theorem witness_StepRunsFrontCommand :
    ({ ready with pending := [.nop h0, .go] } : State).pending = .nop h0 :: [.go] ∧ ready.pending = [] := by decide +kernel

theorem witness_FrontCommandLeavesQueueRest :
    goesOn { ready with pending := [.nop h0, .go] } = true ∧ goesOn { loaded with pending := [.patternLoad h0 0 0x1000] } = true := by
  decide +kernel

theorem witness_EveryStepKeepsMemoriesCanonical :
    loaded.memoriesOk = true ∧ goesOn { loaded with pending := [.nop h0] } = true := by decide +kernel

theorem witness_EveryStepKeepsTaskIdsFresh :
    (busy ready h0 (.delay 1)).idsFresh ∧ (busy ready h0 (.delay 1)).so.tasks.length = 1
      ∧ goesOn { busy ready h0 (.delay 1) with pending := [.nop h0] } = true := by
  unfold State.idsFresh; decide +kernel

theorem witness_ControlEnvelopesComplete :
    ready.so.tasks = [] ∧ h0.quiet = false ∧ hq.quiet = true ∧ Accepts ready h0 .nop ∧ Accepts ready h0 (.fence 0)
      ∧ Accepts ready hf (.fence 1) ∧ Accepts ready h0 (.cancel 0 0xFFFF) ∧ Accepts ready hq .nop := by
  unfold Accepts; decide +kernel

/-- A device in LIMITED whose ring set 0 is enabled. -/
def limited : State := { ready with boot := { ready.boot with stage := 6 } }

theorem witness_EnvelopeChecksRefuse :
    ready.so.tasks = [] ∧ ready.fetchRoom h0.rs.val ≠ 0 ∧ limited.so.tasks = [] ∧ limited.fetchRoom h0.rs.val ≠ 0
      ∧ limited.boot.stage ≠ 5 := by decide +kernel

/-- A DELAY task of one tick as the delay list holds it. -/
def delayed (id due : Nat) : Machine.Task := { taskOf ready h0 (.delay 1) with id := id, due := due }

theorem witness_DelayEntersListAndFallsDue :
    ready.idsFresh ∧ Accepts ready h0 (.delay 1) ∧ Accepts ready h0 (.delay 4294967295)
      ∧ inDelayList (delayed 0 64000) = true ∧ (delayed 0 64000).courier = false ∧ (delayed 0 64000).hdr.quiet = false ∧ inDelayList (delayed 1 128000) = true
      ∧ (delayed 0 64000).due < (delayed 1 128000).due ∧ (delayed 0 64000).waitsFor = [] ∧ (delayed 1 128000).waitsFor = [] := by
  unfold Accepts State.idsFresh; decide +kernel

/-! ### Staging -/

/-- A pending vector-boundary commit of ring set 0, not prepared. -/
def commitOf (items : Tab Nat) : PendingCommit :=
  { task := none, form := 0, mask := 0, site := 0, entry := 0xFFFF, instant := 0, rs := 0, budget := 0, items := items,
    prepDue := 64000, prepared := none, refDone := false, moment := 0, fills := [], lapsed := false, anyApplied := false, system := false, old := [] }

/-- A system commit that this device has neither voted on nor begun. -/
def systemOf : SystemCommit :=
  { instant := 8000000000000, epoch := 1, voted := false, readyDevs := [], refused := [], confirmed := [], gone := false,
    task := none, slot := none }

/-- The configuration with a pending commit. -/
def withCommit (s : State) (p : PendingCommit) : State := { s with cfg := { s.cfg with pending := some p } }

/-- The configuration with a system commit. -/
def withSystem (s : State) (y : SystemCommit) : State := { s with cfg := { s.cfg with system := some y } }

/-- The configuration with a draft of ring set 0. -/
def withDraft (s : State) (d : Tab Nat) : State := { s with cfg := { s.cfg with drafts := [(0, d)] } }

theorem witness_StageWriteFillsDraft :
    ready.idsFresh ∧ Accepts ready h0 (.stageWrite 10 1 15 0x1000 16) ∧ (readItems ready.host 10 1 15 0x1000).2 = 16
      ∧ ready.draftHeld h0.rs.val = false
      ∧ (readItems ready.host 10 1 15 0x1000).1.all
          (ready.mayStage (overlay ready.cfg.committed ((putItems (ready.draft 0) (readItems ready.host 10 1 15 0x1000).1).filter
            (fun kv => kv.1 / 65536 != 12))) 0) = true
      ∧ (withCommit ready (commitOf [])).draftHeld h0.rs.val = true
      ∧ Accepts (withCommit ready (commitOf [])) h0 (.stageWrite 10 1 15 0x1000 16)
      ∧ ready.storageWith 0 (putItems (ready.draft 0) (readItems ready.host 10 1 15 0x1000).1) ≤ 8388608 := by
  unfold Accepts State.idsFresh; decide +kernel

theorem witness_StageReadAndCheckReport :
    ready.idsFresh ∧ Accepts ready h0 (.stageRead 0 10 0 15 1 16 0x1000) ∧ Accepts ready h0 (.stageRead 1 10 0 15 1 16 0x1000)
      ∧ itemSize 10 15 (ready.item 10 15) ≤ 16
      ∧ (withDraft ready [(itemKey 10 15, 1)]).draft 0 = [(itemKey 10 15, 1)]
      ∧ Accepts (withDraft ready [(itemKey 10 15, 1)]) h0 (.stageRead 0 10 0 15 1 16 0x1000) ∧ itemSize 10 15 1 ≤ 16
      ∧ Accepts ready h0 (.stageRead 2 31 0 0 1 64 0x1000) ∧ 1 * (ready.section 31 0).2 ≤ 64
      ∧ hasBoundary (((ready.addTask (taskOf ready h0 (.stageRead 2 31 0 0 1 64 0x1000))).catchUp 31).site 31) = false
      ∧ (((ready.addTask (taskOf ready h0 (.stageRead 2 31 0 0 1 64 0x1000))).catchUp 31).site 31).st ≠ .armed := by
  unfold Accepts State.idsFresh; decide +kernel

theorem witness_StageReadAndCheckReport_check :
    ready.idsFresh ∧ Accepts ready h0 (.check 0 0 0) ∧ Accepts ready h0 (.check 1 0x1000 4294967295)
      ∧ ready.cfg.pending = none := by
  unfold Accepts State.idsFresh; decide +kernel

theorem witness_SealWritesFranks :
    trainedDev.idsFresh ∧ Accepts trainedDev h0 (.seal 0 1) ∧ Accepts trainedDev h0 (.seal 65535 0) ∧ trainedDev.cfg.pending = none
      ∧ (∀ j, j ≤ 1 → trainedDev.canSeal trainedDev.cfg.committed (0 + j) = true
          ∧ trainedDev.canSeal (trainedDev.candidate h0.rs.val) (0 + j) = true)
      ∧ (∀ j, j ≤ 0 → trainedDev.canSeal trainedDev.cfg.committed (65535 + j) = true
          ∧ trainedDev.canSeal (trainedDev.candidate h0.rs.val) (65535 + j) = true
          ∧ ∀ cv, cv = trainedDev.cfg.committed ∨ cv = trainedDev.candidate h0.rs.val →
              trainedDev.holdsLines (trainedDev.rsFn h0.rs.val) (segLine (cvSeg cv (65535 + j))) (sealLines cv (65535 + j)) = true) := by
  unfold Accepts State.idsFresh
  refine ⟨by decide +kernel, by decide +kernel, by decide +kernel, by decide +kernel, by decide +kernel, ?_⟩
  rintro j hj
  obtain rfl : j = 0 := by omega
  refine ⟨by decide +kernel, by decide +kernel, ?_⟩
  rintro cv (rfl | rfl) <;> decide +kernel

/-- A task of an operation in service, with an outcome or none. -/
def served (op : Op) (outcome : Option (Nat × Nat)) : Machine.Task := { taskOf ready h0 op with outcome := outcome }

/-- An office that holds one task. -/
def withTask (s : State) (u : Machine.Task) : State := { s with so := { s.so with tasks := [u], nextId := u.id + 1 } }

theorem witness_ClassCompletionsWriteOutcome :
    let u := served (.stageWrite 10 1 0 0x1000 16) (some (0, 1))
    let v := served (.memCopy 0 8 4) (some (4, 0))
    let w := served (.memCopy 0 8 4) none
    (withTask ready u).so.tasks = [u] ∧ u.st = .inService ∧ u.courier = false ∧ u.outcome = some (0, 1) ∧ u.hdr.quiet = false ∧ opClass u.op = 1
      ∧ v.st = .inService ∧ v.outcome = some (4, 0) ∧ v.op = .memCopy 0 8 4
      ∧ w.outcome = none ∧ w.op = .memCopy 0 8 4 ∧ w.st = .inService ∧ w.hdr.quiet = false := by decide +kernel

theorem witness_PatternEnvelopesBegin :
    loaded.idsFresh ∧ Accepts loaded h0 (.patternLoad 1048573 0x1000)
      ∧ (loaded.addTask (taskOf loaded h0 (.patternLoad 1048573 0x1000))).imageStatus (hostImage loaded.host 0x1000) 1048573
          (loaded.rsFn h0.rs.val) = 0
      ∧ Accepts postmaster h0 (.patternBroadcast 1048573 0x1000) ∧ postmaster.idsFresh := by
  unfold Accepts State.idsFresh; decide +kernel

/-- A site 0 in RUN whose start table reaches line 0: its lines are protected. -/
def running : State := trainedDev.setSite 0 { trainedDev.site 0 with st := .run }

theorem witness_PatternEnvelopesBegin_copy :
    Accepts trainedDev h0 (.memCopy 0 1048568 8) ∧ trainedDev.trained = true ∧ 0 + 8 ≤ trainedDev.mem.capacity
      ∧ 1048568 + 8 ≤ trainedDev.mem.capacity
      ∧ (trainedDev.addTask (taskOf trainedDev h0 (.memCopy 0 1048568 8))).protectedLines 1048568 8 = false
      ∧ Accepts trainedDev h0 (.memCopy 0 1048568 9) ∧ trainedDev.mem.capacity < 1048568 + 9
      ∧ Accepts ready h0 (.memCopy 0 8 4) ∧ ready.trained = false := by
  unfold Accepts; decide +kernel

/-- The slot that a Courier reception holds. -/
def courierTask : Machine.Task := { served .nop none with courier := true }

theorem witness_PatternDataFramesAreReceived :
    let g : Reception := { base := 0, bytes := [1, 2], whole := false, slot := 0 }
    let s : State := { withTask ready courierTask with tree := { ready.tree with rxPattern := some g } }
    let full : State := { ready with so := { ready.so with tasks := List.replicate 4096 courierTask, nextId := 4096 } }
    ready.tree.rxPattern = none ∧ ready.idsFresh ∧ ready.freeSlots ≠ 0 ∧ full.freeSlots = 0 ∧ s.tree.rxPattern = some g
      ∧ s.task g.slot = some courierTask ∧ courierTask.st = .inService
      ∧ (∀ u, (withTask s { courierTask with st := .ready }).task g.slot = some u → u.st ≠ .inService) := by
  unfold State.idsFresh
  refine ⟨by decide +kernel, by decide +kernel, by decide +kernel, by decide +kernel, by decide +kernel, by decide +kernel,
    by decide +kernel, ?_⟩
  intro u hu
  rw [show (withTask _ { courierTask with st := TaskState.ready }).task 0 = some { courierTask with st := .ready } by decide +kernel] at hu
  cases hu
  decide
/-! ### Commit -/

/-- A draft that stages one trigger route. -/
def oneRoute : Tab Nat := [(itemKey 10 15, 256)]

theorem witness_EmptyCommitCompletesAndAbandonDiscards :
    ready.so.tasks = [] ∧ h0.quiet = false ∧ Accepts ready h0 (.commit 0 false 0 0 0 0xFFFF 0 0)
      ∧ Accepts ready h0 (.commit 2 false 0 0 0 0xFFFF 1 7999999999999) ∧ ready.cfg.pending = none ∧ ready.draft h0.rs.val = []
      ∧ ready.idsFresh ∧ Accepts (withDraft ready oneRoute) h0 .abandon ∧ (withDraft ready oneRoute).cfg.pending = none
      ∧ (∀ u ∈ (withDraft ready oneRoute).so.tasks, waitsToBegin none (withDraft ready oneRoute).cfg.system u = false) := by
  unfold Accepts State.idsFresh; decide +kernel

/-- A draft of a route that asks for a mode that is reserved: CHECK finds it. -/
def badRoute : Tab Nat := [(itemKey 10 15, 1)]

theorem witness_CommitBeginsPreparation :
    let s := withDraft ready oneRoute
    let b := withDraft ready badRoute
    Accepts s h0 (.commit 0 false 0 0 0 0xFFFF 0 0) ∧ s.cfg.pending = none ∧ s.draft h0.rs.val ≠ []
      ∧ (s.addTask (taskOf s h0 (.commit 0 false 0 0 0 0xFFFF 0 0))).violations h0.rs.val 0 ++
          (s.addTask (taskOf s h0 (.commit 0 false 0 0 0 0xFFFF 0 0))).c46 (s.draft h0.rs.val) 0 0 0 = []
      ∧ Accepts b h0 (.commit 0 false 0 0 0 0xFFFF 0 0) ∧ b.cfg.pending = none ∧ b.draft h0.rs.val ≠ [] ∧ b.so.tasks = []
      ∧ (b.addTask (taskOf b h0 (.commit 0 false 0 0 0 0xFFFF 0 0))).violations h0.rs.val 0 ++
          (b.addTask (taskOf b h0 (.commit 0 false 0 0 0 0xFFFF 0 0))).c46 (b.draft h0.rs.val) 0 0 0 ≠ [] := by
  unfold Accepts; decide +kernel

theorem witness_SystemCommitSendsPrepare :
    let s := withDraft postmaster oneRoute
    let s1 := s.addTask (taskOf s h0 (.commit 2 true 0 0 0 0 1 0))
    Accepts s h0 (.commit 2 true 0 0 0 0 1 0) ∧ s.cfg.pending = none
      ∧ s1.violations h0.rs.val 0 ++ s1.c46 (s.draft h0.rs.val) 2 0 0 = []
      ∧ s.ptuNow + 2 * s.tree.lsys + prepBound (s.draft h0.rs.val) (holesOf (s1.newFills (s.candidate h0.rs.val))) ≤ 1 * 8000000000000 + 0 := by
  unfold Accepts; decide +kernel

theorem witness_CommitPreparesAndApplies :
    let p := commitOf oneRoute
    let q : PendingCommit := { commitOf oneRoute with prepared := some 64000 }
    (withCommit ready p).cfg.pending = some p ∧ p.prepared = none ∧ p.system = false ∧ p.form = 0
      ∧ ((withCommit ready p).advance p.prepDue).c46 p.items p.form p.mask p.site = []
      ∧ q.prepared = some 64000 ∧ q.form = 0 ∧ q.system = false ∧ q.refDone = false
      ∧ ((withCommit ready q).advance (64000 + 128000)).c46 q.items q.form q.mask q.site = []
      ∧ q.items = [(itemKey 10 15, 256)] ∧ q.task = none ∧ (withCommit ready q).so.tasks = []
      ∧ (withCommit ready q).cfg.system = none := by decide +kernel

theorem witness_AppliedItemIsCommitted :
    let q : PendingCommit := { commitOf oneRoute with prepared := some 64000 }
    (withCommit ready q).cfg.pending = some q ∧ q.prepared = some 64000 ∧ q.items = [(itemKey 10 15, 256)] ∧ q.task = none
      ∧ (withCommit ready q).so.tasks = [] ∧ (withCommit ready q).cfg.system = none ∧ q.refDone = false ∧ q.form = 0 := by
  decide +kernel

theorem witness_SystemCommitMessages :
    let full : State := { ready with so := { ready.so with tasks := List.replicate 4096 courierTask, nextId := 4096 } }
    full.cfg.system = none ∧ full.freeSlots = 0 ∧ (withCommit ready (commitOf oneRoute)).freeSlots ≠ 0
      ∧ ({ systemOf with slot := some 0 } : SystemCommit).slot = some 0 ∧ (withCommit ready (commitOf oneRoute)).cfg.system = none ∧ (withCommit ready (commitOf oneRoute)).cfg.pending.isSome = true
      ∧ (withSystem ready systemOf).cfg.system = some systemOf ∧ (withSystem ready systemOf).cfg.pending = none
      ∧ ({ systemOf with task := some 0 } : SystemCommit).task.isSome = true ∧ ({ systemOf with task := some 0 } : SystemCommit).gone = false
      ∧ ({ systemOf with voted := true } : SystemCommit).voted = true ∧ ({ systemOf with voted := true } : SystemCommit).gone = false
      ∧ systemOf.gone = false ∧ systemOf.task = none := by decide +kernel

theorem witness_SystemCommitDeadlines :
    (withSystem ready systemOf).cfg.pending = none ∧ ({ systemOf with task := some 0 } : SystemCommit).task.isSome = true
      ∧ ({ systemOf with task := some 0 } : SystemCommit).gone = false ∧ systemOf.task = none ∧ ({ systemOf with voted := true } : SystemCommit).voted = true
      ∧ ({ systemOf with task := some 0, gone := true } : SystemCommit).task = some (taskOf ready h0 .nop).id
      ∧ (withTask ready (taskOf ready h0 .nop)).so.tasks = [taskOf ready h0 .nop] := by decide +kernel
/-! ### The host interface -/

/-- Ring set 63 of the PF enabled, with two completions and one event not consumed. -/
def withRings : State :=
  { ready.setRs 63 { ready.rs 63 with st := .enabled, cplProd := 2 } with hif := { (ready.setRs 63 { ready.rs 63 with st := .enabled, cplProd := 2 }).hif with evtProd := 1 } }

theorem witness_DoorbellsMoveHostIndices :
    let q := withRings.rs 63
    let d : DoorWrite := ⟨0, 63, 0, 8⟩
    let e : DoorWrite := ⟨32, 63, 0, 8⟩
    d.page = 63 ∧ d.offset = 0 ∧ d.size = 8 ∧ d.fn = 0 ∧ { d with size := 4 }.size ≠ 8 ∧ { d with offset := 8 }.offset ≠ 0
      ∧ e.fn ≠ 0 ∧ withRings.rsFn e.page.val ≠ e.fn.val
      ∧ 65 ≠ q.strProd ∧ withRings.ringLen 63 2 < (65 - q.strCons).toNat ∧ q.st = .enabled ∧ (64 - q.cmdCons).toNat ≤ withRings.ringLen 63 0 ∧ (64 - q.cmdProd).toNat ≤ withRings.ringLen 63 0
      ∧ (2 - q.cplCons).toNat ≤ (q.cplProd - q.cplCons).toNat ∧ (64 - q.strCons).toNat ≤ withRings.ringLen 63 2
      ∧ (64 - q.strProd).toNat ≤ withRings.ringLen 63 2 ∧ 65 ≠ q.cmdProd ∧ withRings.ringLen 63 0 < (65 - q.cmdCons).toNat
      ∧ 3 ≠ q.cplCons ∧ (q.cplProd - q.cplCons).toNat < (3 - q.cplCons).toNat
      ∧ (withRings.rs 0).st = .enabled ∧ withRings.hif.evtLost = 0
      ∧ (1 - withRings.hif.evtCons).toNat ≤ (withRings.hif.evtProd - withRings.hif.evtCons).toNat := by decide +kernel

/-- One NOP waits in the command ring of ring set 0. -/
def oneCommand : State := { ready.setRs 0 { ready.rs 0 with cmdProd := 1 } with host := [(2, 7)] }

theorem witness_FetchTakesEnvelopesInTurn :
    ready.fetchTurn ≠ some 0 ∧ oneCommand.fetchTurn = some 0 ∧ oneCommand.readCount 0 = 1 ∧ oneCommand.so.tasks = []
      ∧ decodeOp (readLE oneCommand.host (oneCommand.entryAddr 0 0 64 (oneCommand.rs 0).cmdCons.toNat) 64) = .nop
      ∧ (decodeHdr 0 (readLE oneCommand.host (oneCommand.entryAddr 0 0 64 (oneCommand.rs 0).cmdCons.toNat) 64)).quiet = false
      ∧ oneCommand.boot.stage = 5 := by decide +kernel

/-- A NOP that waits in its ready list. -/
def readyNop (id prio seq : Nat) : Machine.Task :=
  { taskOf ready { h0 with prio := Fin.ofNat 8 prio } .nop with id := id, st := .ready, readySeq := seq }

theorem witness_DispatchTakesHighestPriority :
    (readyNop 0 7 0).st = .ready ∧ opClass (readyNop 0 7 0).op = (0 : Fin 9).val
      ∧ (readyNop 1 7 1).courier = false ∧ (withTask ready (readyNop 0 7 0)).serverFree 0 = true ∧ (readyNop 0 0 0).hdr.prio < (readyNop 1 7 1).hdr.prio
      ∧ (readyNop 0 3 1).hdr.prio = (readyNop 1 3 0).hdr.prio ∧ (readyNop 1 3 0).readySeq < (readyNop 0 3 1).readySeq
      ∧ (readyNop 0 0 0).id ≠ (readyNop 1 7 1).id ∧ (readyNop 0 0 0).waitsFor = [] ∧ (readyNop 0 0 0).op = .nop := by
  decide +kernel

/-- Ring set 0 shutting down. -/
def shutting (enable : Bool) : State := ready.setRs 0 { ready.rs 0 with st := .shuttingDown, enablePending := enable }

theorem witness_RingSetLifeCycle :
    (ready.rs 63).st = .disabled ∧ (ready.rs 0).st = .enabled ∧ ready.so.tasks = []
      ∧ (∀ i, i < 16 → (ready.stream i).isOpen = false) ∧ ((shutting false).rs 0).st = .shuttingDown
      ∧ (shutting false).rsTasks 0 = 0 ∧ (shutting false).rsStreams 0 = false ∧ ((shutting false).rs 0).resetRegs = false
      ∧ ((shutting false).rs 0).enablePending = false ∧ ((shutting true).rs 0).enablePending = true
      ∧ (shutting true).rsTasks 0 = 0 ∧ (shutting true).rsStreams 0 = false ∧ ((shutting true).rs 0).resetRegs = false := by
  decide +kernel

/-- Ring set 0 whose command ring waits to be 2^16 entries long. -/
def resizing : State := ready.setRs 0 { ready.rs 0 with resize := [(0, some 16)] }

/-- HIF_VF_SITES of VF 32 asks for site 31. -/
def granting : State := ready.setReg (aGrant 32 0) (2 ^ 31)

theorem witness_ResizeAndGrantApply :
    tget none (resizing.rs 0).resize 0 = some 16 ∧ (16 : Nat) < 32
      ∧ tget none ((resizing.setRs 0 { resizing.rs 0 with nextBase := [(0, some 0x1000)] }).rs 0).nextBase 0 = some 0x1000 ∧ resizing.ringEmpty 0 0 = true
      ∧ granting.siteTarget 31 ≠ granting.siteFn 31 ∧ (granting.site 31).st = .idle := by decide +kernel

theorem witness_FunctionAndLinkResets :
    (32 : Fin 33) ≠ 0 ∧ ready.so.tasks = [] ∧ (∀ i, i < 16 → (ready.stream i).isOpen = false)
      ∧ (∀ j, j < 32 → (ready.site j).st = .idle) := by decide +kernel

/-- One completion of ring set 0 that has not been signalled; vector 0 of the PF not masked. -/
def unsignalled : State :=
  let s := ready.setRs 0 { ready.rs 0 with sigCount := [(1, 1)], sigFirst := [(1, some 0)] }
  let s := s.setReg (aRs 0 0x28) 0x01010080
  { s with hif := { s.hif with unmasked := [0] } }

theorem witness_InterruptsAreCoalescedAndMasked :
    (0 : Fin 3).val < 2 ∧ (0 : Nat) < (if (0 : Nat) = 0 then 128 else 4) ∧ (unsignalled.sigState 0 1).2 = some 0 ∧ unsignalled.ringVector 0 1 = some (0, 0) ∧ 0 * 128 + 0 ∈ unsignalled.hif.unmasked
      ∧ ((32 : Fin 33) = 0 ∨ (3 : Fin 128).val < 4) := by decide +kernel

theorem witness_RegisterAccesses :
    ((2 ≠ 4 ∧ 2 ≠ 8) ∨ 0 % 2 ≠ 0) ∧ (4 : Nat) % 8 ≠ 0 ∧ ready.boot.stage = 5 ∧ ready.boot.porLow = false
      ∧ (1 : Fin 33) ≠ 0 ∧ (4096 : Nat) ≤ 4096 ∧ (52 : Nat) % 64 = 0x34
      ∧ ready.rsFn (4032 / 64) ≠ (1 : Fin 33).val ∧ 4032 % 4 = 0 ∧ isRc aSoPauses = true ∧ aSoPauses % 4 = 0
      ∧ ready.exposedPf aSoPauses = true ∧ isRc aDelayTick = false := by decide +kernel

/-- 1 ms into READY, nothing to report. -/
def smbDev : State := let s := { ready with now := tuPerMs }; { s with boot := { s.boot with smbStatus := s.statusByte } }

theorem witness_SmbusAnswers :
    smbDev.smbAnswers = true ∧ smbDev.statusByte = smbDev.boot.smbStatus
      ∧ ({ smbDev with boot := { smbDev.boot with alertLow := true } } : State).smbAnswers = true
      ∧ ({ smbDev with boot := { smbDev.boot with alertLow := true } } : State).boot.alertLow = true ∧ State.reset.smbAnswers = false := by
  decide +kernel
/-! ### The sequencer -/

/-- A Segment Table entry of 4 vectors (Table 4.1): REPEAT, NEXT, JUMP_TARGET, JUMP_COND and FLAGS as given. -/
def entry (rep next target cond flags : Nat) : Nat :=
  2 ^ 40 * rep + 2 ^ 64 * 4 + 2 ^ 96 * next + 2 ^ 112 * target + 2 ^ 128 * cond + 2 ^ 160 * flags

/-- Site 0 with channel 0, start entry 7 and the segment given there; no vector is fetched, for SV is off. -/
def siteCv (e : Nat) : Tab Nat :=
  [(itemKey 4 0, 1 + 2 ^ 256 * 320000 + 2 ^ 320 * 7 + 2 ^ 336 * (2 ^ 112 - 1)), (itemKey 7 7, e)]

/-- A device whose site 0 has that configuration. -/
def siteDev (e : Nat) : State := { trainedDev with cfg := { trainedDev.cfg with committed := siteCv e } }

/-- Site 0 takes its lines from memory (SV). -/
def fetching (e : Nat) (f : Site → Site) : State :=
  ({ trainedDev with cfg := { trainedDev.cfg with committed :=
    [(itemKey 4 0, 1 + 2 ^ 256 * 320000 + 2 ^ 320 * 7 + 2 ^ 336 * (2 ^ 112 - 1)), (itemKey 6 0, 1), (itemKey 7 7, e)] } } : State).modSite 0 f

/-- Its site 0 in another state of its walk. -/
def withSite (e : Nat) (f : Site → Site) : State := (siteDev e).modSite 0 f

/-- A site in the state given, in entry 7. -/
def inState (st : SeqState) (e : Nat) (x : Site) : Site :=
  { x with st := st, seg := 7, entry := e, started := true }

/-- A plain segment that repeats once, and one that ends the run. -/
def plain : Nat := entry 1 7 7 0 0
def ending : Nat := entry 0 7 7 0 1

theorem witness_RunAndArmPrepare :
    let s := siteDev ending
    s.startable 0 = true ∧ (s.site (s.leadSite 0)).req = none ∧ s.asleepSite 0 = false
      ∧ ¬ ((s.site (s.leadSite 0)).st = .armed ∧ (s.site (s.leadSite 0)).prepSeg = 7)
      ∧ Accepts s h0 (.run 0 0 0 false 7 0 0) ∧ (∀ m ∈ groupOf s.cv 0, siteOn s.cv m mCS = false) ∧ 7 ∈ startList s.cv 0
      ∧ Accepts s h0 (.arm 0 0 7) ∧ Accepts s h0 (.run 0 0 0 false 6 0 0) ∧ 6 ∉ startList s.cv 0
      ∧ s.so.tasks = [] ∧ h0.quiet = false := by
  unfold Accepts; decide +kernel

theorem witness_HostRequestAndStop :
    let s := withSite plain (inState .run plain)
    cvBgroup s.cv 0 = 0 ∧ Accepts s h0 (.arm 0 1 0) ∧ s.so.tasks = [] ∧ h0.quiet = false ∧ (s.site 0).st = .run
      ∧ (withSite plain (inState .hold plain)).so.tasks = [] ∧ ((withSite plain (inState .hold plain)).site 0).st = .hold
      ∧ Accepts s h0 (.stop 0) ∧ s.idsFresh ∧ (s.site 0).stopReq = none
      ∧ Accepts (siteDev plain) h0 (.stop 31) ∧ (siteDev plain).so.tasks = [] ∧ ((siteDev plain).site 31).st = .idle := by
  unfold Accepts State.idsFresh; decide +kernel

/-- An ARMED site, prepared or not, with a RUN of start 0 or with none. -/
def armed (prepared : Bool) (req : Option RunReq) : State :=
  withSite ending (fun x => { x with st := .armed, prepSeg := 7, prepared := prepared, req := req })

theorem witness_PreparationAndEpoch :
    ((armed false none).site ((armed false none).leadSite 0)).st = .armed
      ∧ ((armed false none).site 0).prepared = false ∧ ((armed false none).site 0).walker = none
      ∧ ((armed false none).site 0).req = none ∧ (armed false none).so.tasks = [] ∧ (armed false none).groups = []
      ∧ Group.reset.queue = [] := by decide +kernel

theorem witness_PreparationAndEpoch_epoch :
    let s := armed true (some ⟨0, 0, 0, 0, false, 7, 0, 0⟩)
    (s.site (s.leadSite 0)).req = some ⟨0, 0, 0, 0, false, 7, 0, 0⟩ ∧ (s.epochOf (s.leadSite 0)).isSome = true
      ∧ (s.site (s.leadSite 0)).st = .armed ∧ s.startBlocked (s.leadSite 0) = false ∧ s.cfg.pending = none := by decide +kernel

theorem witness_VectorsAndHoldSlots :
    let s := withSite plain (inState .run plain)
    let t := withSite plain (fun x => { inState .hold plain x with ord := 1 })
    let k : Walker := { seg := 7, entry := plain, pass := 0, line := 0, stack := [], ended := false, via := [], idle := 0, mark := none, jumpTo := none }
    let u := fetching plain (fun x => { x with st := .armed, walker := some k })
    s.walkers 0 ≠ [] ∧ (∀ m ∈ s.walkers 0, (s.site m).st = .run) ∧ (s.boundary 0).walkHeld 0 = false
      ∧ u.misfetched 0 = false ∧ walkerAtLine u.walkCv 0 k = true ∧ cvBgroup s.cv 0 = 0 ∧ (s.site 0).st = .run ∧ s.walkHeld 0 = false ∧ (s.curLine 0).isSome = true
      ∧ (s.site 0).v < segLength (s.curEntry (s.site 0)) ∧ (t.site 0).st = .hold ∧ t.walkHeld 0 = false ∧ (t.site 0).ord ≠ 0
      ∧ (u.site 0).walker = some k ∧ (u.site 0).st = .armed ∧ k.ended = false ∧ u.trained = true
      ∧ (u.site 0).prefetch.length < 8192 := by decide +kernel

/-- A segment that jumps on trigger input 1, and one that is a match loop of a system match group. -/
def jumping : Nat := entry 0 7 7 1 0
def matching : Nat := entry 0 7 7 20 0x20

theorem witness_DecisionsFollowLatches :
    let s := withSite jumping (fun x => { inState .run jumping x with tdp := some (0, 0), latches := [(2, some (-1))] })
    let t := withSite matching (fun x => { inState .run matching x with tdp := some (0, 0), sysMatch := some true, joined := some 1 })
    cvBgroup s.cv 0 = 0 ∧ (s.site 0).st = .run ∧ (s.site 0).tdp = some (0, 0) ∧ (s.site 0).decided = false
      ∧ segJumps (s.site 0).entry = true ∧ (s.site 0).sysMatch = none
      ∧ segSource (((s.advance 64000).settleTo 0 (s.site 0).acc
          (judgeLimit (s.site 0) (((s.advance 64000).now : Int) - (s.site 0).epoch)) ((0 : Int) - 64000)).site 0).entry = 1
      ∧ (t.site 0).st = .run ∧ (t.site 0).tdp = some (0, 0) ∧ (t.site 0).decided = false ∧ segSource (t.site 0).entry = 20
      ∧ (t.site 0).sysMatch.isSome = true := by decide +kernel

/-- Site 0 at the end of a pass of a segment. -/
def passed (e : Nat) (f : Site → Site) : State := withSite e (fun x => f { inState .run e x with v := 4 })

theorem witness_PassBoundaryFollowsTable :
    let j := passed jumping (fun x => { x with tdp := some (0, 0), decided := true, jump := true })
    let r := passed plain id
    let c := passed (entry 0 8 9 0 2) id
    let b := passed (entry 0 8 9 0 4) (fun x => { x with stack := [5, 6] })
    let e := passed ending id
    cvBgroup j.cv 0 = 0 ∧ (j.site 0).st = .run ∧ (j.site 0).started = true ∧ segLength (j.site 0).entry ≤ (j.site 0).v
      ∧ segCheck (j.site 0).entry = false ∧ (j.site 0).decided = true ∧ (j.site 0).jump = true
      ∧ segJumps plain = false ∧ (r.site 0).jump = false ∧ (r.site 0).pass < segRepeat (r.site 0).entry
      ∧ segRepeat (c.site 0).entry ≤ (c.site 0).pass ∧ (segMatch (c.site 0).entry && segJumps (c.site 0).entry) = false
      ∧ segEnd (c.site 0).entry = false ∧ segCall (c.site 0).entry = true
      ∧ segCall (b.site 0).entry = false ∧ segReturn (b.site 0).entry = true ∧ (b.site 0).stack = [5, 6]
      ∧ segRepeat (e.site 0).entry ≤ (e.site 0).pass ∧ segEnd (e.site 0).entry = true ∧ e.so.tasks = []
      ∧ (e.site 0).surveys = [] ∧ (e.site 0).left = none := by decide +kernel

theorem witness_RereadsMarkSuspect :
    let s := withSite plain (fun x => { inState .run plain x with rereads := [(7, 5)], mismatch := [7] })
    cvBgroup s.cv 0 = 0 ∧ (s.site 0).rereads = (7, 5) :: [] ∧ (6 : W32).toNat ≠ 5 ∧ 7 ∈ (s.site 0).mismatch := by decide +kernel

/-- A site's end of DRAIN, before what waits is looked at. -/
def drained (s : State) : State :=
  (s.advance (((s.site 0).epoch : Int) + s.lastPending 0 (((s.site 0).tClose.getD 0)
    + (s.siteChans 0).foldl (fun m c => max m (cvKC s.cv c)) 0)).toNat).finishRun 0

theorem witness_WalksEndInOrder :
    let f := fetching plain (inState .run plain)
    let s := withSite plain (fun x => { inState .run plain x with stopReq := some (0, 1) })
    let h := withSite plain (fun x => { inState .hold plain x with failStop := some 0 })
    let d := withSite plain (fun x => { x with st := .drain })
    cvBgroup f.cv 0 = 0 ∧ f.so.tasks = [] ∧ (f.site 0).surveys = [] ∧ (f.site 0).st = .run ∧ f.walkHeld 0 = false
      ∧ isStreamed f.cv 0 (f.curEntry (f.site 0)) = true ∧ (f.site 0).prefetch = []
      ∧ (f.site 0).v < segLength (f.curEntry (f.site 0)) ∧ (s.site 0).stopReq = some (0, 1) ∧ s.reactionFirst 0 = false
      ∧ segCheck (s.site 0).entry = false ∧ (s.site 0).left = none ∧ (h.site 0).st = .hold ∧ (h.site 0).failStop = some 0
      ∧ (0 : Int) ≤ ((h.site 0).acc : Int) ∧ (h.site 0).stopReq = none ∧ h.reactionFirst 0 = false
      ∧ (d.site 0).st = .drain ∧ (d.site 0).rereads = [] ∧ d.cfg.pending = none ∧ (drained d).recordsWait 0 = false
      ∧ (drained (d.modSite 0 (fun x => { x with marks := [0] }))).recordsWait 0 = true := by decide +kernel

/-- Fault source 35 (UNDERRUN) active with a reaction: 3 holds, 4 parks. -/
def reacting (s : State) (r : Nat) : State := s.setSrc 67 { s.src 67 with active := true, running := r, since := 0 }

theorem witness_ReactionsParkAndHold :
    (reacting (siteDev plain) 4).siteParked 0 = true ∧ ((reacting (siteDev plain) 4).site 0).st = .idle
      ∧ (reacting (withSite plain (inState .run plain)) 3).siteParked 0 = false
      ∧ (reacting (withSite plain (inState .run plain)) 3).siteHeld 0 = true
      ∧ ((withSite plain (inState .run plain)).site 0).surveys = [] ∧ cvBgroup (siteDev plain).cv 0 = 0
      ∧ ((withSite plain (inState .hold plain)).site 0).st = .hold ∧ (withSite plain (inState .hold plain)).siteHeld 0 = false
      ∧ ((withSite plain (fun x => { x with st := .parked })).site 0).st = .parked
      ∧ (withSite plain (fun x => { x with st := .parked })).siteParked 0 = false
      ∧ (withSite plain (fun x => { x with st := .parked })).cfg.pending = none := by decide +kernel
/-! ### Stamps, streams and triggers -/

/-- Site 0 in RUN whose channel 0 stamps the rising edges of its CH comparator (EP), pair slot 63 naming that channel. -/
def stamping : State :=
  ({ trainedDev with cfg := { trainedDev.cfg with committed :=
    [(itemKey 4 0, 1 + 2 ^ 256 * 320000 + 2 ^ 320 * 7 + 2 ^ 336 * (2 ^ 112 - 1)), (itemKey 6 0, 0x40), (itemKey 6 32, 0x40),
     (itemKey 7 7, plain), (itemKey 9 0, 2 * 2 ^ 128), (itemKey 11 64, 0x80)] } } : State).modSite 0 (inState .run plain)

/-- The same, its channel stamped at 0 last. -/
def stamped : State := stamping.modChan 0 (fun x => { x with pmLast := some 0 })

/-- The same, its first vector issued: the stamps of the first 40 ns can be placed. -/
def issued (s : State) : State := s.modSite 0 (fun x =>
  { x with acc := 320000, ord := 1, vec := 1, recent := [{ ord := 0, start := 0, frame := 0, period := 320000, tau := 0, vec := 0, hold := false }] })

theorem witness_CrossingsAreSampledAndStamped :
    (chanLevels (stamping.chan 0)).1 = false ∧ (stamping.chan 0).pins = [] ∧ stamping.siteOf 127 = none
      ∧ stamping.siteOf 0 = some 0 ∧ (stamping.pmAt 0 0 1599).2 = true
      ∧ (stamping.pmAt 0 0 1599).1.testBit 2 = false ∧ fld (stamping.pmAt 0 0 1599).1 0 2 = 2
      ∧ inSpan (stamping.site 0) ((1599 : Int) - (stamping.site 0).epoch - cvKC stamping.cfg.committed 0) = true
      ∧ (stamped.chan 0).pmLast = some 0 ∧ ((1599 : Int) - (stamping.site 0).epoch - cvKC stamping.cfg.committed 0) < 0 + 1600
      ∧ (stamping.chan 0).pmLast = none ∧ (stamping.chan 0).pmWait = []
      ∧ ((stamping.site 0).st ≠ .idle ∧ (stamping.site 0).st ≠ .armed ∧ inSpan (stamping.site 0) (stamping.stampOf 0 0 .ch true 1599).t = true)
      ∧ pmReady stamping.cfg.committed 0 (stamping.site 0) (stamping.stampOf 0 0 .ch true 1599).t = false
      ∧ pmReady (issued stamping).cfg.committed 0 ((issued stamping).site 0) (stamping.stampOf 0 0 .ch true 1599).t = true
      ∧ pmSelects (stamping.pmAt 0 0 0).1 (stamping.stampOf 0 0 .ch true 1599) = true
      ∧ pmSelects (stamping.pmAt 0 0 0).1 (stamping.stampOf 0 0 .cl true 1599) = false
      ∧ ((stamping.modSite 0 (fun x => { x with st := .idle })).site 0).st = .idle
      ∧ ((issued stamping).site 0).recent.find? (fun m => some m.ord == (issued stamping).pmVector 0 0 1599) =
          some { ord := 0, start := 0, frame := 0, period := 320000, tau := 0, vec := 0, hold := false }
      ∧ fld ((issued stamping).pmAt 0 0 0).1 4 2 = 0 ∧ (stamping.chan 0).pmDropGap = 0 ∧ qLen (stamping.chan 0).pmQ < 4096 := by
  decide +kernel

/-- The run of site 0 has ended: its slots may latch. -/
def closed : State := stamping.modSite 0 (fun x => { x with tClose := some 0 })

/-- A slot whose REPORT period of one vector has ended: all its stamps seen, or not yet. -/
def reporting (now : Nat) : State :=
  let s := issued { stamping with now := now, cfg := { stamping.cfg with committed :=
    (stamping.cfg.committed.filter (fun e => e.1 != itemKey 11 64)) ++ [(itemKey 11 64, 0x80 + 2 ^ 64)] } }
  s.setSlot 63 { s.slot 63 with nextLatch := 1 }

theorem witness_IntervalSlotsLatch_reports :
    (reporting 0).slotSite 63 = some 0 ∧ pairOn ((reporting 0).pairWord 63) = true ∧ ((reporting 0).slot 63).closed = false
      ∧ (reporting 0).reportsDue 0 63 = 1 ∧ ((reporting 0).chan 0).pmWait = []
      ∧ ((reporting 0).site 0).recent.map (fun m => (reporting 0).vectorEnd 0 0 m) = [320000]
      ∧ (reporting 0).stampBound 0 0 = 0 ∧ (reporting 320000).stampBound 0 0 = 320000 := by decide +kernel

theorem witness_IntervalSlotsLatch :
    closed.slotSite 63 = some 0 ∧ pairOn (closed.pairWord 63) = true ∧ (closed.slot 63).closed = false
      ∧ (closed.site 0).tClose = some 0 ∧ ((closed.site 0).epoch : Int) + 0 + cvKC closed.cfg.committed 0 ≤ closed.now
      ∧ pairA (closed.pairWord 63) = 0 ∧ pairB (closed.pairWord 63) = 0 ∧ (closed.chan 0).pmWait = []
      ∧ closed.reportsDue 0 63 = 0 ∧ closed.stampBound 0 0 = 0
      ∧ pairOn (closed.pairWord 0) = false := by decide +kernel

/-- Stream 15 open for ring set 0. -/
def streaming : State :=
  { ready with acq := { ready.acq with streams := [(15, { Stream.reset with isOpen := true })] } }

/-- A bag of stream 15 that holds one mark. -/
def bag : Bag :=
  { stream := 15, rs := 0, recs := [markRecord 16 5 0], summaries := [], isSummary := false, final := false, early := false,
    warmup := false, opened := 0, closedSec := 0, closedTu := 0, line := none }

/-- Stream 15 open, its bag being filled, one mark in the device queue. -/
def filling : State :=
  { ready with acq := { ready.acq with streams := [(15, { Stream.reset with isOpen := true, cur := some bag })],
                                       devQ := [(markRecord 16 9 0, 15)] } }

theorem witness_EpochPairsAndWarmup :
    (stamping.site 0).st = .run ∧ isTaking (streaming.stream 15) = true ∧ ready.role ≠ 2 ∧ (stamping.site 1).st = .idle
      ∧ (filling.stream 15).cur = some bag ∧ bag.recs.length < 502 ∧ filling.toCsp 15 = false ∧ ready.ptu.warmTicks < 3
      ∧ ready.ptu.tbWarm = false ∧ isTaking (ready.stream 15) = false
      ∧ 3 ≤ { ready.ptu with warmTicks := 3 }.warmTicks ∧ { ready.ptu with tbWarm := true }.tbWarm = true := by decide +kernel

/-- Ring set 0 may stream. -/
def streamRing : State := ready.setReg (aRs 0 0x20) 3

theorem witness_StreamsOpenMarkAndClose :
    Accepts streamRing h0 (.streamOpen 15) ∧ streamRing.idsFresh ∧ (streamRing.stream 15).isOpen = false
      ∧ (streamRing.addTask (taskOf streamRing h0 (.streamOpen 15))).streamForbidden h0.rs.val 15 = false
      ∧ (streamRing.reg (aRs h0.rs.val 0x20)).testBit 1 = true ∧ Accepts streaming h0 (.streamMark 15 false false 0)
      ∧ streaming.so.tasks = [] ∧ h0.quiet = false ∧ (streaming.stream 15).isOpen = true ∧ streaming.acq.devDrop = 0
      ∧ qLen (streaming.acq.devQ.map (·.1)) < 1024 ∧ Accepts ready h0 (.streamMark 0 false false 0)
      ∧ (ready.stream 0).isOpen = false ∧ ready.so.tasks = [] ∧ Accepts streaming h0 (.streamClose 15 0)
      ∧ isTaking (streaming.stream 15) = true ∧ Accepts ready h0 (.streamClose 0 0) ∧ isTaking (ready.stream 0) = false := by
  unfold Accepts State.idsFresh; decide +kernel

theorem witness_RecordsMergeIntoPostbags :
    filling.acq.devQ = (markRecord 16 9 0, 15) :: [] ∧ filling.toCsp 15 = false ∧ isTaking (filling.stream 15) = true
      ∧ (filling.stream 15).cur = some bag ∧ bag.recs.length < 503 ∧ recKind (markRecord 16 9 0) ≠ 5
      ∧ filling.nextQueue 0 = none ∧ filling.nextQueue 15 = some 256 ∧ (filling.stream 15).curSum = none
      ∧ (filling.stream 15).unreported = [] ∧ bag.recs ≠ [] ∧ bag.recs.length ≤ 504 ∧ filling.acq.buffer.length < 256
      ∧ filling.spills = false ∧ filling.acq.spillOld = 0 := by decide +kernel

/-- One bag in the buffer, and one on the spill ring, of a stream that is open; a descriptor in the stream ring. -/
def bagged (prod : W32) : State :=
  { ready.setRs 0 { ready.rs 0 with strProd := prod } with
    acq := { ready.acq with streams := [(15, { Stream.reset with isOpen := true })], buffer := [bag], spill := [{ bag with line := some 64 }], spillOld := 1 } }

theorem witness_PostbagsReachTheHost :
    (∀ i, i < 16 → isFull ((bagged 1).stream i) = false ∧ ((bagged 1).stream i).closing = none)
      ∧ (bagged 1).acq.buffer = bag :: [] ∧ ((bagged 1).rs bag.rs).strProd ≠ ((bagged 1).rs bag.rs).strCons
      ∧ readLE (bagged 1).host ((bagged 1).entryAddr bag.rs 2 16 ((bagged 1).rs bag.rs).strCons.toNat) 8 % 4096 = 0
      ∧ bag.final = false ∧ ((bagged 0).rs bag.rs).strProd = ((bagged 0).rs bag.rs).strCons ∧ ((bagged 0).rs bag.rs).st = .enabled
      ∧ (((bagged 0).setRs 0 { (bagged 0).rs 0 with st := .shuttingDown }).rs bag.rs).st ≠ .enabled
      ∧ (bagged 1).acq.spill = { bag with line := some 64 } :: [] ∧ (∀ i, i < 64 → (bagged 1).isPoisoned (64 + i) = false) ∧ (bagged 1).acq.buffer.length ≤ 192 := by decide +kernel

/-- Input 16 has just had an edge; a pulse waits on line 0, and one stands on line 15. -/
def triggered : State :=
  { stamping with trg := { stamping.trg with lastEdge := [(15, some 0)], waiting := [(0, [⟨5, 9, 0⟩])], active := [(15, some ⟨5, 9, 0⟩)], begun := [(15, [⟨5, 9, 0⟩])] } }

theorem witness_TriggerInputsAndPulses :
    tget none triggered.trg.lastEdge 15 = some 0 ∧ (7999 : Nat) < 0 + 8000 ∧ tget none triggered.trg.lastEdge 0 = none
      ∧ 0 + 8000 ≤ (8000 : Nat) ∧ triggered.leadSite 0 = 0 ∧ triggered.walkers 0 ≠ [] ∧ (triggered.site 0).epoch ≤ 8000
      ∧ firstPulse (tget [] triggered.trg.waiting 0) = some ⟨5, 9, 0⟩ ∧ tget none triggered.trg.active 0 = none
      ∧ tget none triggered.trg.active 15 = some ⟨5, 9, 0⟩ ∧ tget [] triggered.trg.waiting 15 = []
      ∧ (armed true (some ⟨0, 0, 1, 15, false, 7, 0, 0⟩)).startBlocked 0 = false
      ∧ ((armed true (some ⟨0, 0, 1, 15, false, 7, 0, 0⟩)).site 0).epochAt = none
      ∧ (⟨9, 12, 0⟩ : Pulse).start ≤ (⟨5, 9, 0⟩ : Pulse).stop
      ∧ (tget [] triggered.trg.begun 15).filter (fun g => decide ((⟨6, 12, 0⟩ : Pulse).start < g.stop)) = [⟨5, 9, 0⟩]
      ∧ (⟨5, 9, 0⟩ : Pulse).route = (⟨6, 12, 0⟩ : Pulse).route ∧ (⟨5, 9, 0⟩ : Pulse).route ≠ (⟨6, 12, 1⟩ : Pulse).route := by decide +kernel
/-! ### The CSP -/

/-- A CSP that runs. -/
def cspRun : Csp := { Csp.reset with st := .running }

/-- A device whose CSP is in a state given. -/
def withCsp (c : Csp) : State := { ready with csp := c }

theorem witness_CspLaneOperations :
    canIssue (withCsp cspRun).csp = true ∧ cspFits .c (withCsp cspRun).csp.pc 8 8 = true ∧ (63 : Fin 64).val + 1 ≤ laneBits true ∧ (0 : Fin 64).val + 32 ≤ laneBits false
      ∧ (0 : Fin 32) ≠ 31 ∧ cspFits .x 0 (4 * 1) 4 = true
      ∧ cspRead cspRun .x 0 4 + ((List.range (lanesOf false)).filter (qBit cspRun 0)).length < 2 ^ 32 := by decide +kernel

/-- A trellis of 4 states and the least depth. -/
def trellis : Csp := { cspRun with states := 4, depth := 16, bmBase := 0, ringBase := 4096 }

theorem witness_CspLaneOperations_trellis :
    (trellisM (trellisSet trellis (some (16, 0, 4096, 16))).states).isSome = true ∧ (trellisM trellis.states).isSome = true ∧ 16 ≤ trellis.depth ∧ trellis.depth ≤ 4096
      ∧ cspFits .y trellis.bmBase (16 * trellis.states) 4 = true
      ∧ cspFits .y trellis.ringBase (trellis.depth * (trellis.states / 4)) 1 = true ∧ canIssue (withCsp trellis).csp = true
      ∧ (3 : Fin 64).val < trellis.states ∧ 16 ≤ trellis.depth ∧ cspFits .x 0 (ceilDiv (2 * 16) 8) 1 = true := by decide +kernel

/-- An image as staged. -/
def staged (kind : Nat) : StagedImage := { sha := 5, addr := 0x2000, bytes := 832, kind := kind, version := 1, root := 2 }

theorem witness_CspControlStreamAndMoves :
    Accepts (withCsp { Csp.reset with st := .loaded }) h0 (.cspStart 7 [0, 0, 0, 0, 0, 0, 0, 0])
      ∧ Accepts ready h0 (.cspStart 0 [0, 0, 0, 0, 0, 0, 0, 0]) ∧ ready.csp.st = .off ∧ ready.so.tasks = [] ∧ h0.quiet = false
      ∧ canIssue (withCsp cspRun).csp = true ∧ (0 : Fin 16) ≠ 15
      ∧ ({ withCsp cspRun with acq := { ready.acq with streams := [(0, { Stream.reset with isOpen := true })] } } : State).cspStream = 0
      ∧ cspRun.task = none ∧ cspRun.outQ = [] ∧ cspRun.loops = []
      ∧ { cspRun with task := some 0 }.task = some (taskOf ready h0 (.cspStart 0 [])).id
      ∧ (withTask (withCsp { cspRun with task := some 0 }) (taskOf ready h0 (.cspStart 0 []))).so.tasks =
          [taskOf ready h0 (.cspStart 0 [])] := by
  unfold Accepts; decide +kernel

/-- An open stream 0 for the CSP's records. -/
def cspOpen : State := { withCsp cspRun with acq := { ready.acq with streams := [(0, { Stream.reset with isOpen := true })] } }

theorem witness_CspControlStreamAndMoves_words :
    cspFits .c { cspRun with pc := 524288 }.pc 8 8 = false ∧ canIssue { cspRun with pc := 524288 } = true
      ∧ cspFits .c cspRun.pc 8 8 = true ∧ (cspOpen.stream cspOpen.cspStream).isOpen = true
      ∧ ((withCsp cspRun).stream (withCsp cspRun).cspStream).isOpen = false ∧ cspRun.outQ.length + 8 ≤ 1024
      ∧ 1024 < { cspRun with outQ := List.replicate 1024 0 }.outQ.length + 1 ∧ (taskOf ready h0 (.cspStart 0 [])).courier = false
      ∧ (match moveWrites cspRun (.loadV .x 0 0) with | .ok _ => true | _ => false) = true ∧ moveWords cspRun (.loadV .x 0 0) ≠ 0
      ∧ (match moveWrites cspRun (.moveS 0 1) with | .ok _ => true | _ => false) = true
      ∧ 4 ≤ { cspRun with loops := List.replicate 4 ⟨8, 1, none, true, false⟩ }.loops.length := by decide +kernel

theorem witness_CspControlStreamAndMoves_stops :
    { cspRun with calls := [8] }.calls = 8 :: [] ∧ { cspRun with calls := [8] }.loops = []
      ∧ 524280 % 8 = 0 ∧ 524280 + 8 ≤ 524288 ∧ cspRun.calls.length < 8 ∧ cspRun.calls = []
      ∧ 8 ≤ { cspRun with calls := [0, 0, 0, 0, 0, 0, 0, 0] }.calls.length
      ∧ (tget 0 { cspRun with p := [(7, 4)] }.p (7 : Fin 8).val).toNat % 64 ≠ 0
      ∧ cspFits .x (tget 0 cspRun.p 0).toNat 64 64 = true ∧ cspFits .c (tget 0 cspRun.p 0).toNat 4 4 = true
      ∧ { cspRun with stalled := some [(5 : BitVec 64)] }.stalled = some [(5 : BitVec 64)]
      ∧ (0 : Nat) + [(5 : BitVec 64)].length ≤ 1024 ∧ { cspRun with waiting := some (1, 8000) }.waiting = some (1, 8000)
      ∧ cspRun.inQ.length < 1 ∧ { Csp.reset with st := .loaded, activatePending := some 0 }.activatePending = some 0
      ∧ tget none { ready.boot with staged := [(1, some (staged 2))] }.staged 1 = some (staged 2) := by decide +kernel
/-! ### Courier ports -/

/-- A device whose port 3 is as given. -/
def withPort (x : Port) : State := ready.setPort 3 x

/-- A port in ACTIVE with credits and all its lanes. -/
def active : Port := { Port.reset with st := .active, tx := 15, rx := 15, credits := [(0, 8), (1, 16), (2, 32), (3, 64)] }

/-- A frame of type 8 on channel 3 with a stamp, before its frank is set. -/
def rawFrame (stamp : Nat) : Nat := 8 + 2 ^ 8 * 3 + 2 ^ 48 * stamp

/-- A frame with its frank. -/
def frameOf (raw : Nat) : BitVec 2048 := BitVec.ofNat 2048 (sealFrame raw)

/-- That frame with its frank. -/
abbrev frame (stamp : Nat) : BitVec 2048 := frameOf (rawFrame stamp)

/-- A PREPARE to every device. -/
def prepRaw : Nat := 6 + 2 ^ 8 + 2 ^ 10 + 2 ^ 128

/-- A frame with a frank that is not its own. -/
def spoilt (f : Nat) : BitVec 2048 := BitVec.ofNat 2048 (f % 2 ^ 2016 + 2 ^ 2016 * ((frFrank f + 1) % 2 ^ 32))

theorem frameOf_toNat (r : Nat) : (frameOf r).toNat = sealFrame r := by
  rw [frameOf, BitVec.toNat_ofNat, Nat.mod_eq_of_lt (sealFrame_lt _)]

theorem frameOf_good (r : Nat) : frankGood (frameOf r).toNat = true := by rw [frameOf_toNat, frankGood_sealFrame]

theorem frameOf_fld (r lo w : Nat) (h : lo + w ≤ 2016) : fld (frameOf r).toNat lo w = fld r lo w := by
  rw [frameOf_toNat, fld_sealFrame _ _ _ h]

theorem frameOf_testBit (r k : Nat) (h : k < 2016) : (frameOf r).toNat.testBit k = r.testBit k := by
  rw [frameOf_toNat, testBit_sealFrame _ _ h]

theorem frameOf_stamp (r : Nat) : frStamp (frameOf r).toNat = fld r 48 16 := frameOf_fld r 48 16 (by decide)

theorem reserved_congr {f g : Nat} (h1 : frType f = frType g) (h2 : frVc f = frVc g) (h3 : frCode f = frCode g) :
    isReserved f = isReserved g := by
  unfold isReserved
  rw [h1, h2, h3]

theorem frameOf_reserved (r : Nat) : isReserved (frameOf r).toNat = isReserved r :=
  reserved_congr (frameOf_fld r 0 8 (by decide)) (frameOf_fld r 8 2 (by decide)) (frameOf_fld r 128 8 (by decide))

theorem frameOf_mustHold (s : State) (r : Nat) : s.mustHold (frameOf r).toNat = s.mustHold r := by
  unfold State.mustHold
  rw [frameOf_reserved, frameOf_testBit r 136 (by decide), show frBcast (frameOf r).toNat = frBcast r from frameOf_testBit r 10 (by decide),
    show frDest (frameOf r).toNat = frDest r from frameOf_fld r 16 10 (by decide),
    show frType (frameOf r).toNat = frType r from frameOf_fld r 0 8 (by decide),
    show frCode (frameOf r).toNat = frCode r from frameOf_fld r 128 8 (by decide)]

/-- The CHECK bytes of some LINK_CTL blocks, and one that fails. -/
theorem witness_ctl : ctlTaken 1 65535 0 (BitVec.ofNat 8 (ctlCheck (linkCtlContent 1 65535 0))) = true
    ∧ ctlTaken 2 65535 0 (BitVec.ofNat 8 (ctlCheck (linkCtlContent 2 65535 0))) = true
    ∧ ctlTaken 3 1 3 (BitVec.ofNat 8 (ctlCheck (linkCtlContent 3 1 3))) = true
    ∧ ctlTaken 3 64 3 (BitVec.ofNat 8 (ctlCheck (linkCtlContent 3 64 3))) = true
    ∧ ctlTaken 4 0 3 (BitVec.ofNat 8 (ctlCheck (linkCtlContent 4 0 3))) = true
    ∧ ctlTaken 5 0 3 (BitVec.ofNat 8 (ctlCheck (linkCtlContent 5 0 3))) = true
    ∧ ctlTaken 1 65535 0 (BitVec.ofNat 8 (ctlCheck (linkCtlContent 1 65535 0) + 1)) = false
    ∧ ctlTaken 2 65535 0 (BitVec.ofNat 8 (ctlCheck (linkCtlContent 2 65535 0) + 1)) = false
    ∧ ctlTaken 3 1 3 (BitVec.ofNat 8 (ctlCheck (linkCtlContent 3 1 3) + 1)) = false := by decide +kernel

theorem spoilt_bad (f : Nat) : frankGood (spoilt f).toNat = false := by
  have hx : (frFrank f + 1) % 2 ^ 32 < 2 ^ 32 := Nat.mod_lt _ (Nat.two_pow_pos 32)
  have hf := frFrank_lt f
  have hne : (frFrank f + 1) % 2 ^ 32 ≠ frFrank f := by omega
  rw [spoilt, BitVec.toNat_ofNat, Nat.mod_eq_of_lt (frame_lt f _ hx), frankGood_iff _ _ hx, decide_eq_false hne]

theorem witness_FramesAreSentAcknowledgedAndReplayed :
    let w := withPort { active with txq := [(3, [0])] }
    (w.port 3).st = .active ∧ currentVc (w.port 3) = some 3 ∧ tget [] (w.port 3).txq 3 = 0 :: [] ∧ (w.port 3).replay.length < 64
      ∧ tget 0 (w.port 3).credits 3 ≠ 0 ∧ currentVc { active with txq := [(3, [0])], begun := [(3, 0)] } = some 3
      ∧ (active.nakSent = false ∧ active.asked = []) ∧ (withPort active).tree.id = none ∧ notAfter 0xFFFF (active.stamp - 1) = true := by
  decide +kernel

theorem active_rxq (v : Nat) : tget [] active.rxq v = [] := rfl

theorem witness_FramesAreSentAcknowledgedAndReplayed_received :
    frankGood (spoilt 0).toNat = false ∧ frankGood (frame 0).toNat = true ∧ frAckValid (frame 0).toNat = false
      ∧ frCredits (frame 0).toNat = 0 ∧ BitVec.ofNat 16 (frStamp (frame 0).toNat) = active.expected
      ∧ isReserved (frame 0).toNat = false ∧ (withPort active).mustHold (frame 0).toNat = false ∧ frankGood (frame 65535).toNat = true
      ∧ frAckValid (frame 65535).toNat = false ∧ frCredits (frame 65535).toNat = 0
      ∧ BitVec.ofNat 16 (frStamp (frame 65535).toNat) ≠ active.expected
      ∧ notAfter (BitVec.ofNat 16 (frStamp (frame 65535).toNat)) (active.expected - 1) = true := by
  refine ⟨spoilt_bad 0, frameOf_good _, (frameOf_testBit _ 11 (by decide)).trans (by decide +kernel),
    (frameOf_fld _ 104 8 (by decide)).trans (by decide +kernel), ?_, (frameOf_reserved _).trans (by decide +kernel),
    (frameOf_mustHold _ _).trans (by decide +kernel), frameOf_good _, (frameOf_testBit _ 11 (by decide)).trans (by decide +kernel),
    (frameOf_fld _ 104 8 (by decide)).trans (by decide +kernel), ?_, ?_⟩
  all_goals rw [frameOf_stamp]; decide +kernel

/-- A Branch without a free task slot. -/
def fullBranch : State :=
  let b : State := { (withPort active) with boot := { (withPort active).boot with straps := 2 } }
  { b with so := { b.so with tasks := List.replicate 4096 (taskOf b h0 .nop) } }

/-- A PREPARE that waits for a slot; a frame beyond the one expected; lanes that keep a NAK back. -/
theorem witness_FramesAreSentAcknowledgedAndReplayed_held :
    frankGood (frameOf prepRaw).toNat = true ∧ frAckValid (frameOf prepRaw).toNat = false ∧ frCredits (frameOf prepRaw).toNat = 0
      ∧ BitVec.ofNat 16 (frStamp (frameOf prepRaw).toNat) = (fullBranch.port 3).expected ∧ (fullBranch.port 3).st = .active
      ∧ (∀ v, tget [] (fullBranch.port 3).rxq v = []) ∧ fullBranch.mustHold (frameOf prepRaw).toNat = true
      ∧ frankGood (frame 1).toNat = true ∧ BitVec.ofNat 16 (frStamp (frame 1).toNat) ≠ active.expected
      ∧ notAfter (BitVec.ofNat 16 (frStamp (frame 1).toNat)) (active.expected - 1) = false
      ∧ (3, false, 0) ∈ { active with asked := [(3, false, 0)] }.asked := by
  refine ⟨frameOf_good _, (frameOf_testBit _ 11 (by decide)).trans (by decide +kernel), (frameOf_fld _ 104 8 (by decide)).trans (by decide +kernel),
    ?_, by decide +kernel, fun _ => rfl, (frameOf_mustHold _ _).trans (by decide +kernel), frameOf_good _, ?_, ?_, by decide⟩
  all_goals rw [frameOf_stamp]; decide +kernel

theorem witness_FramesAreSentAcknowledgedAndReplayed_replay :
    let x := { active with replay := [0], stamp := 1 }
    x.replay = 0 :: [] ∧ (withPort x).resendShort 3 0xFFFF = false
      ∧ notAfter (BitVec.ofNat 16 (frStamp (0 : BitVec 2048).toNat) - 1) 0xFFFF = true
      ∧ x.resends < 4 ∧ 4 ≤ { x with resends := 4 }.resends ∧ x.st = .active
      ∧ { Port.reset with st := .capability }.st = .capability ∧ { Port.reset with st := .recovery }.st = .recovery
      ∧ ready.role ≠ 2 := by decide +kernel

/-- A Branch in the tree whose upstream port is ACTIVE, and a device with that port that is no Branch. -/
theorem witness_FramesAreSentAcknowledgedAndReplayed_recovery :
    let b : State := { (withPort active) with boot := { (withPort active).boot with straps := 2 } }
    let b : State := { b with tree := { b.tree with id := some 5, inTree := true, upstream := 3 }, ptu := { b.ptu with st := .locked } }
    b.role = 2 ∧ (3 : Nat) = b.tree.upstream ∧ b.tree.inTree = true ∧ (b.port 3).st = .active ∧ b.ptu.st ≠ .unset
      ∧ active.child = none ∧ (withPort active).role ≠ 2 := by decide +kernel

/-- A marker of lane 3 with a mask and a place. -/
def mark (mask offset : Nat) : BitVec 64 := BitVec.ofNat 64 (sealCtl (0x4B + 2 ^ 8 * 3 + 2 ^ 12 * mask + 2 ^ 32 * offset))

theorem witness_LanesAndPortStatesMove :
    (withPort active).port 3 = active ∧ active.st = .active ∧ active.tx.getLsbD 3 = true
      ∧ active.changes.any (fun c => c.1 == 3 && c.2.1 == false) = false
      ∧ { active with tx := 7, admitted := 15 }.tx.getLsbD 3 = false ∧ { active with tx := 7, admitted := 15 }.admitted.getLsbD 3 = true
      ∧ { active with changes := [(3, false, 800000)] }.changes = [(3, false, 800000)] ∧ (800000 : Nat) ≤ 800000 ∧ active.changes = []
      ∧ active.rx.getLsbD 3 = true ∧ active.rx = 15#4 ∧ failedBeside active 3 0 = false
      ∧ failedBeside { active with failedAt := [(0, some 0)] } 3 0 = true
      ∧ { active with rx := 7 }.rx.getLsbD 0 = true ∧ laneCount { active with rx := 7 }.rx < 4
      ∧ { active with rx := 7 }.rx.getLsbD 3 = false ∧ tget none { active with rx := 7, laneSince := [(3, some 0)] }.laneSince 3 = some 0
      ∧ (((withPort { active with rx := 7 }).setReg (aCou 3 0) 3).reg (aCou 3 0)).testBit 1 = true := by decide +kernel

theorem witness_LanesAndPortStatesMove_markers :
    isMarker (mark 15 31).toNat = true ∧ isMarker (mark 7 31).toNat = true ∧ markerLane (mark 15 31).toNat = mapLane active.reversed 3
      ∧ markerOffset (mark 15 31).toNat = 31 ∧ markerOffset (mark 15 31).toNat ≠ 0
      ∧ mapMask active.reversed (BitVec.ofNat 4 (markerMask (mark 15 31).toNat)) = active.rx
      ∧ mapMask active.reversed (BitVec.ofNat 4 (markerMask (mark 7 31).toNat)) ≠ active.rx ∧ active.asked = []
      ∧ (∀ v, tget [] active.rxq v = []) := by
  refine ⟨?_, ?_, ?_, ?_, ?_, ?_, ?_, rfl, fun _ => rfl⟩
  all_goals decide +kernel

/-- The work of a state on four good lanes. -/
def goodWork : LaneWork := ⟨[some 0, some 1, some 2, some 3], [64, 64, 64, 64], [0, 0, 0, 16]⟩

theorem witness_LanesAndPortStatesMove_checkers :
    let dropped := { active with rx := 7, laneSince := [(3, some 0)] }
    let tested := fun loop => (withPort { Port.reset with st := .test }).setReg (aCou 3 0x28) (loop + 2 ^ 7 * 8)
    (withPort dropped).checkerServes 3 3 = true ∧ (withPort active).checkerServes 3 3 = false ∧ (withPort active).now < checkerLockBits * bitTime
      ∧ checkerLockBits * bitTime ≤ { tested 1 with now := 2000000 }.now ∧ (((tested 1).port 3).st = .test)
      ∧ ((tested 1).loopPath 3).inside = true ∧ ((tested 2).loopPath 3).inside = true ∧ (tested 0).loopPath 3 = .main
      ∧ (tested 3).loopPath 3 = .farEnd ∧ (tested 4).loopPath 3 = .serveFar
      ∧ ((tested 1).reg (aCou 3 0x28)).testBit (7 + 3) = true ∧ ((tested 1).reg (aCou 3 0x28)).testBit (7 + 0) = false
      ∧ (((withPort { Port.reset with st := .test }).setReg (aCou 3 0x28) 8).reg (aCou 3 0x28)).testBit 3 = true := by decide +kernel

theorem witness_LanesAndPortStatesMove_states :
    let lock := { Port.reset with st := .symbolLock, tx := 15, rx := 15 }
    let back := { active with st := .recovery, found := 15, foundRx := 15 }
    Port.reset.st = .detect ∧ 15#4 ≠ 0 ∧ { Port.reset with st := .train }.st = .train ∧ { Port.reset with st := .bitLock }.st = .bitLock
      ∧ lock.st = .symbolLock ∧ lanesEnough (symbolLanes lock 15 15 0 goodWork) = true
      ∧ lanesEnough (symbolLanes lock 15 15 0 { goodWork with headers := [64, 63, 63, 64] }) = false
      ∧ { Port.reset with st := .capability, capSeen := true, capAcked := true }.capAcked = true
      ∧ back.relocked = false ∧ lanesEnough (symbolLanes { back with tx := back.found, rx := back.foundRx } 15 15 0 goodWork) = true
      ∧ { back with relocked := true, capSeen := true, capAcked := true }.capSeen = true
      ∧ { Port.reset with due := some 5 }.due = some 5 ∧ { Port.reset with st := .down, retryDue := some 5 }.retryDue = some 5
      ∧ Port.reset.retryDue = none ∧ (ready.reg (aCou 3 0)).testBit 0 = true ∧ ready.boot.thermLatched = false
      ∧ { active with eyeRunning := true }.eyeRunning = true := by decide +kernel
/-! ### The tree and its time -/

/-- A Branch in READY, outside a tree. -/
def branch : State := { ready with boot := { ready.boot with straps := 2 } }

/-- A Branch that is device 5 of a tree, port 3 leading up. -/
def joined : State := { branch with tree := { branch.tree with id := some 5, inTree := true, upstream := 3 } }

theorem witness_TreeMessagesBuildTheTreeAndMatch_discover :
    let crossed : State := { branch with tree := { branch.tree with reached := true, upstream := 3 } }
    branch.tree.reached = false ∧ crossed.role = 2 ∧ ¬ (crossed.tree.inTree = true ∧ crossed.tree.id = some (5 : BitVec 10).toNat)
      ∧ crossed.tree.reached = true ∧ (0 : Fin 4).val ≠ crossed.tree.upstream
      ∧ ((joined.setPort 1 active).port 1).st = .active ∧ (1 : Nat) ≠ (joined.setPort 1 active).tree.upstream
      ∧ (joined.setPort 1 active).tree.id = some (5 : BitVec 10).toNat ∧ (joined.setPort 1 active).tree.inTree = true
      ∧ ¬ (fld (branch.port branch.tree.upstream).peer.toNat 8 8 = 1) ∧ (∀ q < 4, (joined.port q).child ≠ some (6 : BitVec 10).toNat)
      ∧ ((List.range 4).find? (fun q => ((joined.setPort 1 { active with child := some 6 }).port q).child == some (6 : BitVec 10).toNat)) = some 1 := by
  decide +kernel

theorem witness_TreeMessagesBuildTheTreeAndMatch :
    branch.role = 2 ∧ branch.tree.inTree = false ∧ postmaster.role = 1 ∧ joined.role = 2 ∧ joined.tree.inTree = true
      ∧ joined.tree.id ≠ some (9 : BitVec 10).toNat ∧ (0 : Fin 4).val ≠ joined.tree.upstream
      ∧ (∀ n ∈ postmaster.tree.nodes, n.serial ≠ 77) ∧ postmaster.refusesNode false (10 + 1) (postmaster.pathVia 0 0 0) = true
      ∧ postmaster.refusesNode false (9 + 1) (postmaster.pathVia 0 0 0) = false ∧ joined.tree.id = some (5 : BitVec 10).toNat
      ∧ branch.ptu.started = false ∧ (5 : Nat) ≠ (6 : BitVec 10).toNat
      ∧ ([(1, 0), (2, 3)].find? (fun a => a.2 == 3)) = some (2, 3) ∧ (255 : BitVec 8) ≠ 0 ∧ joined.groupRunSites 255 = [] := by decide +kernel

/-- A Branch outside the tree with an ACTIVE port 3 whose peer forwards its clock. -/
def forwardedBelow : State := branch.setPort 3 { branch.port 3 with st := .active, fclkOk := true, peer := 0x100 }

theorem witness_TreeMessagesBuildTheTreeAndMatch_relock :
    forwardedBelow.role = 2 ∧ forwardedBelow.tree.inTree = false ∧ fld (forwardedBelow.port 3).peer.toNat 8 8 = 1
      ∧ (forwardedBelow.port 3).fclkOk = true ∧ forwardedBelow.boot.refFclk = false ∧ (forwardedBelow.port 3).st = .active
      ∧ (match exec (.assign 3 5 ⟨1, 3⟩ 0 0) forwardedBelow with
          | .next t => t.tree.inTree && t.tree.id == some 5 && t.boot.refFclk && (t.port 3).st == .recovery && (t.src 63).sticky
              && (t.port 2).st == (forwardedBelow.port 2).st
          | _ => false) = true := by decide +kernel

/-- Match group 255 on its combiner, with members and the index under way as given. -/
def matched (joined : List Nat) (index : Option Nat) (sent : Bool) : State :=
  { postmaster with tree := { postmaster.tree with groups :=
    [(255, { MatchGroup.reset with joined := joined, index := index, resultSent := sent, deadline := index })] } }

/-- The same group on a Branch below its combiner. -/
def below : State := { joined with tree := { joined.tree with groups := [(255, { MatchGroup.reset with known := true })] } }

theorem witness_TreeMessagesBuildTheTreeAndMatch_match :
    (matched [] none false).isCombiner 255 = true ∧ 5 ∉ ((matched [] none false).mgroup 255).joined
      ∧ below.isCombiner 255 = false ∧ 5 ∉ (below.mgroup 255).joined ∧ ((matched [5] none false).mgroup 255).index = none
      ∧ ((matched [5] none false).mgroup 255).joined = [5] ∧ ((matched [5] (some 7) true).mgroup 255).index = some 7
      ∧ ((matched [5] (some 7) true).mgroup 255).resultSent = true ∧ (7 : BitVec 52).toNat ≤ 7
      ∧ (matched [5] (some 7) true).isCombiner 255 = true ∧ (6 : BitVec 52).toNat < 7 ∧ 5 ∈ ((matched [5] (some 7) true).mgroup 255).joined
      ∧ ((matched [5] (some 7) false).mgroup 255).deadline = some 7 ∧ ((matched [5] (some 7) false).mgroup 255).resultSent = false
      ∧ (matched [5] (some 7) false).isCombiner 255 = true := by decide +kernel

/-- A device of the tree in forwarded mode. -/
def forwardedOne : State := joined.setPort 3 { joined.port 3 with st := .active, fclkOk := true, peer := 0x100 }

/-- A child of the Postmaster with one of its own at some distance. -/
def withNode (s : State) (path : Nat) : State :=
  { s with tree := { s.tree with nodes := s.tree.nodes ++ [⟨9, 77, 1, 0, 0, 3, 1, true⟩, ⟨10, 78, 2, path, 9, 3, 1, true⟩] } }

theorem witness_TreeMessagesBuildTheTreeAndMatch_rest :
    let ep := { joined with ptu := { joined.ptu with stepped := true, theta := 8000 } }
    let ep := ep.setPort 3 { ep.port 3 with skewDone := true }
    let sel := postmaster.setReg aMatchSel 255
    let bt : State := { branch with boot := { branch.boot with stage := 3, straps := 0x0A } }
    joined.tree.upstream = (3 : Fin 4).val ∧ ep.tree.inEpoch = false ∧ ep.ptu.stepped = true ∧ (ep.port 3).skewDone = true
      ∧ ep.ptu.theta.natAbs ≤ 8000 ∧ ep.forwarded = false ∧ { ep.tree with inEpoch := true }.inEpoch = true ∧ sel.role = 1
      ∧ fld (sel.reg aMatchSel) 0 8 ≠ 0 ∧ (1023 : BitVec 10) ≠ 0 ∧ (∀ n ∈ sel.tree.nodes, n.inTree = true → n.id ≠ 1023)
      ∧ bt.bootMode = 2 ∧ bt.boot.stage = 3 ∧ (tget [] bt.tree.rxBoot 0 ++ [1]).length < 832
      ∧ ((withPort active).port 3).st = .active ∧ ((withPort active).port 3).child = none
      ∧ forwardedOne.role = 2 ∧ forwardedOne.tree.inTree = true ∧ forwardedOne.forwarded = true ∧ forwardedOne.ptu.st ≠ .holdover
      ∧ { forwardedOne.tree with aligned := true }.aligned = true ∧ (withNode sel 30000000).role = 1
      ∧ (∃ n ∈ (withNode sel 30000000).tree.nodes, n.inTree = true ∧ n.id = (9 : BitVec 10).toNat)
      ∧ (withNode sel 0).combinerH (9 : BitVec 10).toNat ≤ 3200000 ∧ 3200000 < (withNode sel 30000000).combinerH (9 : BitVec 10).toNat
      ∧ (postmaster.role = 1 ∧ [1, 2, 3, (4 : Byte)].length = 4) ∧ (withPort active).role ≠ 1 := by decide +kernel

/-- A Postmaster that keeps time, its seconds counted from 0. -/
def keeping : State := { postmaster with ptu := { postmaster.ptu with started := true, st := .locking } }

/-- PTU_CTRL with bits set. -/
def ctrl (s : State) (v : Nat) : State := s.setReg aPtuCtrl v

/-- A time-of-day message that names second 100. -/
def todNum : Nat := 0x4bd3bb12000000000000006400014454

theorem witness_TimeUnitKeepsAndCorrectsTime :
    let k := ctrl keeping 0x200
    let p := ctrl keeping 1
    let d : Domain := { Domain.reset with edges := 2, todFor := some 100, todEnd := 0, lastEdge := some 80000000000 }
    keeping.ptu.started = true ∧ keeping.ptu.stepAt = none ∧ keeping.role = 1
      ∧ (keeping.setTimer tmSync 0).timer tmSync < (keeping.setTimer tmSync 0).nextSecond
      ∧ (k.reg aPtuCtrl).testBit 9 = true ∧ k.timer tmTod < k.nextSecond ∧ p.domainFor 1 = some false
      ∧ (p.setDomain false d).domainOf false = d ∧ d.ok = false ∧ d.edges = 2 ∧ d.todEnd + 10 * tuPerMs ≤ 8079999999999 + 1
      ∧ 80000000000 + tuPerSec ≤ 8080000000000 + tuPerMs ∧ 8080000000000 ≤ 80000000000 + tuPerSec + tuPerMs
      ∧ { d with ok := true }.ok = true ∧ todValid todNum = true ∧ todValid 0 = false := by decide +kernel

theorem witness_TimeUnitKeepsAndCorrectsTime_sources :
    let h := ctrl keeping 2
    let w := ctrl keeping 0x11
    h.domainFor 2 = some false ∧ (7999999999999 : BitVec 64).toInt.natAbs < tuPerSec ∧ h.activeB = false
      ∧ h.ptu.started = true ∧ h.ptu.stepped = false
      ∧ (h.setDomain false { Domain.reset with ok := true }).domainOf false = { Domain.reset with ok := true }
      ∧ w.dual = true ∧ h.dual = false ∧ h.ptu.st ≠ .unset ∧ ((ctrl keeping 0x31).reg aPtuCtrl).testBit 5 = true := by decide +kernel

/-- A Branch in LOCKED whose exchange on port 3 has begun. -/
def exchanging : State :=
  { joined.setPort 3 { joined.port 3 with exT1 := some 0, exSeq := 7, exT2 := 100, exT3 := 100 } with
    ptu := { joined.ptu with st := .locked } }

theorem witness_TimeUnitKeepsAndCorrectsTime_exchange :
    exchanging.role = 2 ∧ exchanging.tree.inTree = true ∧ exchanging.tree.upstream = 3 ∧ (exchanging.port 3).exT1 = some 0
      ∧ (exchanging.port 3).exSeq = 7 ∧ exchanging.ptuNow ≤ 0 + 10 * tuPerMs
      ∧ { exchanging with ptu := { exchanging.ptu with started := true, anchor := 80000000001 * 2 ^ 48 } }.ptuNow > 0 + 10 * tuPerMs
      ∧ (((exchanging.setPort 3 { exchanging.port 3 with child := some 9 }).port 3).child).isSome = true
      ∧ exchanging.forwarded = false ∧ exchanging.ptu.st = .locked
      ∧ ¬ (100 : Int) + 10 * (tuPerMs : Nat) < exchanging.ptuNow + roundDiv ((100 - 0) + (100 - 100) + 0) 2
      ∧ (100 : Int) + 10 * (tuPerMs : Nat) < exchanging.ptuNow + roundDiv ((100 - 0) + (100 - 100) + 2 ^ 40) 2 := by decide +kernel

/-- The same in forwarded mode, the forwarded clock in use. -/
def forwardedBranch : State := exchanging.setPort 3 { exchanging.port 3 with peer := 0x100, fclkOk := true }

theorem witness_TimeUnitKeepsAndCorrectsTime_seconds :
    let out := ctrl keeping 0x500
    let two := ctrl keeping 0x31
    let two := (two.setDomain false { Domain.reset with ok := true }).setDomain true { Domain.reset with ok := true }
    out.role ≠ 2 ∧ (out.reg aPtuCtrl).testBit 8 = true ∧ (out.reg aPtuCtrl).testBit 10 = true
      ∧ ((keeping.setPort 1 { active with child := some 6 }).port 1).child.isSome = true
      ∧ (two.domainOf false).ok = true ∧ two.dual = true ∧ (two.reg aPtuCtrl).testBit 5 = true ∧ (two.domainOf true).ok = true
      ∧ true ≠ two.activeB ∧ false = two.activeB ∧ (exchanging.port exchanging.tree.upstream).fclkOk = false
      ∧ ((exchanging.setPort 3 active).port 3).st = .active ∧ (exchanging.port 3).st ≠ .active
      ∧ { exchanging.ptu with st := .holdover }.st = .holdover
      ∧ keeping.genStart 7 < { keeping with now := 1 }.ptuNow ∧ (matched [] none false).role = 1 := by decide +kernel

theorem witness_TimeUnitKeepsAndCorrectsTime_rest :
    forwardedBranch.role = 2 ∧ forwardedBranch.forwarded = true ∧ (forwardedBranch.port forwardedBranch.tree.upstream).fclkOk = true
      ∧ (-32 : Int).natAbs ≤ 32 ∧ forwardedBranch.ptu.st = .locked ∧ (exchanging.port exchanging.tree.upstream).fclkOk = false
      ∧ exchanging.ptu.degraded = false ∧ (0 : Int) < { ready.ptu with phaseToWalk := 1 }.phaseToWalk
      ∧ { ready.ptu with phaseToWalk := -1 }.phaseToWalk < (0 : Int) ∧ (ready.gen 7).arm = false
      ∧ ready.ptuNow ≤ ready.genStart 7 ∧ keeping.genStart 7 < { keeping with now := 1 }.ptuNow ∧ keeping.genPeriod 7 = 0
      ∧ 0 < (keeping.setReg64 (aGen 7 0x10) 16000).genPeriod 7 ∧ keeping.genCount 7 = 0
      ∧ { Gen.reset with arm := true }.arm = true ∧ { ready.ptu with captured := some (1, 2) }.captured = some (1, 2) := by
  decide +kernel
/-! ### Memory, calibration, converters -/

/-- A device in the last boot stage whose memory trains. -/
def training : State := { ready with boot := { ready.boot with stage := 4 }, mem := { ready.mem with state := 1 } }

/-- Trained memory of one DIMM a channel: rank 0 active, rank 1 the spare. -/
def memDev : State :=
  { ready with mem := { ready.mem with state := 2, capacity := 2 ^ 31, spare := [(0, some 1), (1, some 1), (2, some 1), (3, some 1)] } }

/-- The same with rank 0 of channel 3 queued, or migrating. -/
def queued : State := { memDev with mem := { memDev.mem with queue := [(3, 0)] } }
def moving (progress : Nat) : State := { memDev with mem := { memDev.mem with migration := some ⟨3, 0, 1, progress, []⟩ } }

/-- A DIMM that Table 15.1 supports, one in each channel, and the same with channel 3 empty. -/
def goodDimm : DimmSpd := ⟨true, 4, 2, 32⟩
def goodChan : ChanFound := ⟨some goodDimm, none, 0⟩
def goodSpd : List ChanFound := [goodChan, goodChan, goodChan, goodChan]
def badSpd : List ChanFound := [goodChan, goodChan, goodChan, ⟨none, none, 0⟩]

/-- Wrong bits in nine symbols of a codeword. -/
def manyWrong : Errors := (List.range 9).map (fun i => (Fin.ofNat 80 (8 * i), 1))

/-- A line's codeword clean, with one wrong bit, and with wrong symbols on many devices. -/
theorem witness_MemoryIsTrainedRefreshedRepairedAndMigrated_lines :
    badPopulation goodSpd = none ∧ badPopulation badSpd = some 3 ∧ passingRanks 2 12 ≠ [] ∧ passingRanks 2 3 = [] ∧ (∀ x ∈ goodSpd, x.failed = 0)
      ∧ (0xC000 : BitVec 16).getLsbD (3 * 4 + 2) = true ∧ (0x1000 : BitVec 16).getLsbD (3 * 4 + 0) = true
      ∧ memDev.decodeLine (2 ^ 31 - 1) [] = .clean
      ∧ (match memDev.decodeLine (2 ^ 31 - 1) [(5, 1)] with | .corrected _ => true | _ => false) = true
      ∧ memDev.decodeLine (2 ^ 31 - 1) manyWrong = .uncorrectable
      ∧ 7 ∈ { memDev.mem with poisoned := [7] }.poisoned ∧ memDev.mem.migration = none
      ∧ (0x1000 : BitVec 16).getLsbD (4 * 3 + 0) = true ∧ memDev.rankCounts 3 0 = true
      ∧ [none, some (332 : Int), some 380][1]? = some (some 332) ∧ [none, some (332 : Int)][0]? = some none := by decide +kernel

theorem witness_MemoryIsTrainedRefreshedRepairedAndMigrated :
    training.boot.stage = 4 ∧ training.mem.state = 1 ∧ training.boot.cfgNext = none ∧ training.cal.noRecord = false
      ∧ memDev.mem.state = 2 ∧ (memDev.rank 3 0).retired = false
      ∧ (3, 0) ∈ { memDev.mem with recentre := [(3, 0)] }.recentre ∧ memDev.isTarget 3 0 = false ∧ (memDev.rank 3 0).erased = []
      ∧ memDev.rankCounts 3 0 = true ∧ (2 : Nat) ≤ tget 0 { memDev.mem with misses := [(7, 2)] }.misses 7
      ∧ (memDev.rank 3 0).debt < 4 ∧ 4 ≤ { memDev.rank 3 0 with debt := 4 }.debt ∧ ((memDev.setReg aMcCtrl 1).reg aMcCtrl).testBit 0 = true
      ∧ memDev.mem.migration = none ∧ 2 ^ 31 - 1 < memDev.mem.capacity ∧ 2 ^ 31 - 1 ∉ memDev.mem.poisoned
      ∧ (memDev.rank 3 0).retraining = false ∧ (memDev.spareOf 3).isSome = true := by decide +kernel

theorem witness_MemoryIsTrainedRefreshedRepairedAndMigrated_moves :
    tget (0, 0, 0) { memDev.mem with banks := [(bankKey 3 0 1 31, (5, 0, 8))] }.banks (bankKey 3 0 1 31) ≠ (0, 0, 0)
      ∧ queued.mem.migration = none ∧ queued.nextMigration = some (3, 0) ∧ queued.spareOf 3 = some 1
      ∧ (moving 0).mem.migration = some ⟨3, 0, 1, 0, []⟩ ∧ 0 < (moving 0).rankSlice / 4 ∧ (moving 0).migLine ⟨3, 0, 1, 0, []⟩ ∉ (moving 0).mem.poisoned
      ∧ (moving 0).decodeLine ((moving 0).migLine ⟨3, 0, 1, 0, []⟩) [] = .clean
      ∧ (match (moving 0).decodeLine ((moving 0).migLine ⟨3, 0, 1, 0, []⟩) [(5, 1)] with | .corrected _ => true | _ => false) = true
      ∧ (moving 0).decodeLine ((moving 0).migLine ⟨3, 0, 1, 0, []⟩) manyWrong = .uncorrectable
      ∧ (moving (2 ^ 29)).rankSlice / 4 ≤ 2 ^ 29 ∧ { Rank.reset with retraining := true }.retraining = true := by decide +kernel

/-- A device whose group 15 is as given. -/
def withGroup (x : Group) : State := ready.setGroup 15 x

/-- A phase on a group's queue. -/
def phase (p : Nat) (started : Bool) : PhaseRun := { phase := p, inPlace := false, started := started, task := none }

theorem witness_CalibrationKeepsGroupsInTrim :
    Accepts ready h0 (.calibrate 0x8000 7 true false) ∧ ready.idsFresh ∧ bitsOf 16 0x8000 ≠ [] ∧ bitsOf 3 7 ≠ []
      ∧ Accepts ready h0 (.calibrate 0xFFFF 1 false true) ∧ ready.so.tasks = [] ∧ h0.quiet = false
      ∧ Group.reset.asleepAt = none ∧ { Group.reset with isStale := true, asleepAt := some 0 }.isStale = true
      ∧ (ready.reg aCalCtrl).testBit 0 = true ∧ ready.isAsleep 15 = false ∧ Group.reset.due = false
      ∧ ready.calDt * 1 < ((([1000].take 8).sum - Group.reset.calTemp * 1).natAbs : Int)
      ∧ { Group.reset with due := true }.overdue = false ∧ { Group.reset with asleepAt := some 0 }.asleepAt = some 0
      ∧ Group.reset.isStale = false
      ∧ tget (0 : BitVec 64) { ready.adc with hk := [(48, 1)] }.hk (33 + 15) ≠ 0
      ∧ ready.calDt < ((codeTemp (sfld 524287 0 20) - Group.reset.asleepTemp).natAbs : Int) := by
  unfold Accepts State.idsFresh; decide +kernel

/-- A loopback's round trips of group 15, in the middle of the window. -/
def trips : List (Fin 128 × Bool × Nat × Nat) := (List.range 8).map (fun i => (Fin.ofNat 128 (120 + i), true, 2048, 2048))

/-- Its reflections, of the polarity that CAL_FIX_POL names. -/
def reflections : List (Fin 128 × Bool × Int) := (List.range 8).map (fun i => (Fin.ofNat 128 (120 + i), true, 100))

/-- The fixture's group with round trips already measured. -/
def tripped : State := { ready with cal := { ready.cal with targets := (List.range 8).map (fun i => ((120 + i) * 128 + 100, 2 ^ 31)) } }

theorem witness_CalibrationKeepsGroupsInTrim_phases :
    let q0 := withGroup { Group.reset with queue := [phase 0 false] }
    let q1 := withGroup { Group.reset with queue := [phase 1 false] }
    let q2 := withGroup { Group.reset with queue := [phase 2 false] }
    let inRun := ((siteDev plain).modSite 0 (fun x => { x with st := .run })).setGroup 0 { Group.reset with queue := [phase 1 false] }
    let open_ := ((ready.setReg 0x9018 0).setReg 0x901C 1)
    q0.nextPhase 15 = some (phase 0 false) ∧ q0.busyPhases < 4 ∧ q1.nextPhase 15 = some (phase 1 false) ∧ q2.nextPhase 15 = some (phase 2 false)
      ∧ q2.loopbackValid 15 = false ∧ tripped.loopbackValid 15 = true ∧ portHeld Group.reset = false ∧ portHeld { Group.reset with peBusy := true } = true
      ∧ (inRun.r22 0 = false ∧ (inRun.group 0).queue = phase 1 false :: [] ∧ (phase 1 false).phase ≠ 0) ∧ inRun.groupIn 0 inUse = true
      ∧ { Group.reset with queue := [phase 0 true] }.queue.find? (·.started) = some (phase 0 true)
      ∧ (phase 0 true).task = none ∧ (phase 1 true).inPlace = false ∧ { phase 0 true with inPlace := true }.inPlace = true
      ∧ { Group.reset with sense := some 0 }.sense = some (0 : Int) ∧ ready.loopbackOk 15 0 [] = false ∧ ready.fixtureOk 15 0 [] = false
      ∧ open_.loopbackOk 15 0 trips = true ∧ ((ready.setReg 0x9028 0).setReg 0x9030 100).fixtureOk 15 0 reflections = true
      ∧ ready.r22 15 = true ∧ Group.reset.queue.any (·.started) = false ∧ loopScript 0 = some 0 ∧ loopScript 2 = none
      ∧ { Group.reset with queue := [phase 0 true] }.queue.any (·.started) = true
      ∧ { Group.reset with due := true, isPartial := true }.isPartial = true
      ∧ hasInternal { Group.reset with due := true, isPartial := true } = false
      ∧ (0 : Nat) + 64 * loopBit 0 ≤ 32000 ∧ (31999 : Nat) < 0 + 64 * loopBit 0 := by decide +kernel

/-- BC on, site 0 in RUN with channel 0, the delay trim of channel 0 away from where it was calibrated. -/
def tracking : State :=
  ({ trainedDev with
      cfg := { trainedDev.cfg with committed := [(itemKey 4 0, 1 + 2 ^ 256 * 320000 + 2 ^ 320 * 7 + 2 ^ 336 * (2 ^ 112 - 1)),
        (itemKey 6 160, 0x400), (itemKey 7 7, plain)] },
      cal := { trainedDev.cal with targets := [(0, 5)] } } : State).modSite 0 (inState .run plain)

theorem witness_CalibrationKeepsGroupsInTrim_trim :
    let s1 := { tracking with cal := { tracking.cal with delta := tset 0 tracking.cal.delta 0 64 } }
    (((64 : Int) * 65536 - tracking.predicted 0 0).natAbs : Int) ≤ 64 * 65536 ∧ tracking.deviceMode.testBit mBC = true
      ∧ (tracking.group 0).queue.any (fun p => p.started && !p.inPlace) = false ∧ (s1.stepMoment 0 0).isSome = true
      ∧ 64 < (s1.trimGap 0 0).natAbs ∧ Group.reset.replicaOut = false ∧ 4 ≤ blocksInUse ready.cal.badBlocks
      ∧ 4 ≤ blocksInUse 0x0FFF ∧ blocksInUse 0x1FFF < 4 ∧ ready.cal.slot < 32
      ∧ ((withSite plain (inState .drain plain)).stepMoment 0 0).isNone = true := by decide +kernel

/-- Two records of the calibration log, one of each generation. -/
def recordA : CalRecord := { seq := 1, genB := false, slot := 0, seconds := 0, words := [], bad := 0 }
def recordB : CalRecord := { recordA with seq := 2, genB := true }

theorem witness_CalibrationKeepsGroupsInTrim_log :
    newestRecord ([recordA, recordB].filter (fun r => r.genB != recordB.genB)) = some recordA
      ∧ { ready.cal with log := [recordA, recordB], inForce := some recordB }.inForce = some recordB
      ∧ (∀ j < 16, ready.isAsleep j = true ∨ ∀ k < 32, k ∈ ready.groupSites j → (ready.site k).st = .idle)
      ∧ (∀ k ∈ (siteDev plain).groupSites 0, ((siteDev plain).site k).st = .idle)
      ∧ 0 ∈ (withSite plain (inState .run plain)).groupSites 0 ∧ ((withSite plain (inState .run plain)).site 0).st ≠ .idle
      ∧ { Group.reset with loopRun := true }.loopRun = true := by decide +kernel

/-- A request of a MEASURE task at work on a converter, with results still to deliver. -/
def request (task : Option Nat) (left filter skip : Nat) : AdcReq :=
  { id := 0, task := task, mux := 1, gain := 0, filter := filter, left := left, urgent := false, pair := false, check := false,
    retest := none, housekeeping := false, cal := none, skip := skip, records := false, buffer := false, addr := 0 }

theorem witness_ConvertersMeasureAndDeliver :
    Accepts ready h0 (.measure 1 58 3 8 4294967295 false false false false 0) ∧ (ready.conv (1 == 1)).isOut = false
      ∧ Accepts ready h0 (.measure 2 0 0 0 1 false true false false 0)
      ∧ { ready.adc.a with isOut := true }.isOut = true ∧ ready.so.tasks = [] ∧ h0.quiet = false
      ∧ (ready.conv false).cur = none ∧ (ready.conv true).queue = []
      ∧ { Conv.reset with cur := some (request (some 5) 2 0 2) }.cur = some (request (some 5) 2 0 2)
      ∧ (request (some 5) 2 0 2).pair = false
      ∧ { Conv.reset with got := 1 }.got + 1 < (request (some 5) 2 0 2).skip + 2 ^ (request (some 5) 2 0 2).filter
      ∧ (request (some 5) 2 0 2).skip + 2 ^ (request (some 5) 2 0 2).filter ≤ { Conv.reset with got := 2 }.got + 1
      ∧ { request none 1 1 2 with housekeeping := true }.housekeeping = true ∧ (request none 1 1 2).task = none
      ∧ (calReq 15).cal = some 15 ∧ (calReq 15).task = none ∧ (calReq 15).housekeeping = false ∧ (calReq 15).pair = false
      ∧ (request (some 5) 2 0 2).records = false ∧ (request (some 5) 2 0 2).buffer = false
      ∧ (request (some 5) 2 0 2).housekeeping = false ∧ (request (some 5) 2 0 2).task = some 5 ∧ 1 < (request (some 5) 2 0 2).left
      ∧ ready.adc.a.isOut = false ∧ ready.adc.b.isOut = false
      ∧ tget none { ready.adc with frozen := [(2, some (9 : BitVec 64))] }.frozen 2 = some (9 : BitVec 64) := by
  unfold Accepts; decide +kernel
/-! ### The Clerk -/

/-- A microword: SAFE, JRNL, ENTRY and NOABORT in bits 7 to 4 of `flags`, then its SEQ (Table 18.2). -/
def word (flags seq : Nat) : BitVec 128 := BitVec.ofNat 128 (2 ^ 124 * flags + 2 ^ 120 * seq)

/-- A Clerk with one word at 6144 of bank A, and its context 9 as given. -/
def clerkDev (w : BitVec 128) (running : Bool) (x : Ctx) : State :=
  { ready with clerk := { ready.clerk with words := [(6144, w)], ctxs := [(9, x)], running := if running then some 9 else none } }

/-- A routine at work at that word. -/
def routine : Ctx := { Ctx.reset with busy := true, isReady := true, entry := 6144, pc := 6144 }

/-- A customer routine of task 0. -/
def customer : Ctx := { routine with customer := true, task := some 0 }

theorem witness_ClerkRunsAbortsAndSwaps :
    Accepts (clerkDev (word 2 0) false Ctx.reset) h0 (.clerkCall 6144 [1, 2, 3, 4, 5, 6, 7, 8])
      ∧ (clerkDev (word 2 0) false Ctx.reset).clerk.swapPending = none
      ∧ (6144 % 8192 / 64) ∉ (clerkDev (word 2 0) false Ctx.reset).clerk.badBlocks
      ∧ cwEntry ((clerkDev (word 2 0) false Ctx.reset).clerkWord 6144) = true
      ∧ Accepts (clerkDev (word 0 0) false Ctx.reset) h0 (.clerkCall 6144 [])
      ∧ cwEntry ((clerkDev (word 0 0) false Ctx.reset).clerkWord 6144) = false ∧ ready.so.tasks = [] ∧ h0.quiet = false
      ∧ (clerkDev (word 0 0) true routine).clerk.running = some 9 ∧ (clerkDev (word 0 0) true routine).ctx 9 = routine
      ∧ cwSeq ((clerkDev (word 0 0) true routine).clerkWord 6144) = 0 ∧ routine.stack = [] ∧ routine.customer = false
      ∧ cwSafe ((clerkDev (word 0 0) true routine).clerkWord 6144) = false
      ∧ cwSafe ((clerkDev (word 8 0) true routine).clerkWord 6144) = true ∧ routine.abortReq = none
      ∧ (clerkDev (word 0 0) true routine).clerk.sinceSafe + 1 + 2047 ≤ 2048 ∧ routine.pc < 8191 ∧ (2 : Nat) < 3 := by
  unfold Accepts; decide +kernel

theorem witness_ClerkRunsAbortsAndSwaps_ends :
    let task := taskOf ready h0 (.clerkCall 6144 [])
    8 ≤ cwSeq ((clerkDev (word 0 8) true routine).clerkWord 6144) ∧ routine.journal = [] ∧ routine.noAbort = false
      ∧ { routine with noAbort := true }.noAbort = true ∧ cwSeq ((clerkDev (word 0 0) true customer).clerkWord 6144) ≠ 7
      ∧ (clerkDev (word 0 0) true customer).mayWrite 0xD004 = false ∧ customer.customer = true
      ∧ cwSeq ((clerkDev (word 0 5) true routine).clerkWord 6144) = 5 ∧ cwSeq ((clerkDev (word 0 6) true customer).clerkWord 6144) = 6
      ∧ cwSeq ((clerkDev (word 0 7) true customer).clerkWord 6144) = 7 ∧ customer.task = some task.id
      ∧ (withTask (clerkDev (word 0 6) true customer) task).so.tasks = [task] ∧ task.hdr.quiet = false := by decide +kernel

theorem witness_ClerkRunsAbortsAndSwaps_rest :
    let w := { customer with waiting := true, isReady := false }
    let s := clerkDev (word 0 0) false w
    let sw := { ready with clerk := { ready.clerk with swapPending := some (0, 16000), inactive := .verified } }
    (s.ctx 9).busy = true ∧ (s.ctx 9).waiting = true ∧ s.clerk.running = none ∧ s.bestCtx = none ∧ (s.ctx 9).customer = true
      ∧ (s.ctx 9).abortReq = none ∧ (s.ctx 9).noAbort = false ∧ (s.ctx 9).journal = []
      ∧ ((ready.setReg aClerkCtrl 1).reg aClerkCtrl).testBit 0 = true
      ∧ (withTask sw (taskOf ready h0 (.imageActivate 0))).clerk.swapPending = some ((taskOf ready h0 (.imageActivate 0)).id, 16000)
      ∧ (withTask sw (taskOf ready h0 (.imageActivate 0))).so.tasks = [taskOf ready h0 (.imageActivate 0)]
      ∧ sw.allStand = true ∧ sw.clerk.inactive = .verified ∧ sw.boot.rollback ≤ sw.inactiveVersion ∧ ready.clerk.inactive ≠ .verified
      ∧ (clerkDev (word 0 0) true routine).allStand = false := by decide +kernel

theorem witness_ClerkRunsAbortsAndSwaps_journals (j : Nat) :
    ((clerkDev (word 0 0) false { customer with waiting := true }).ctx j).journal = [] := by
  simp [State.ctx, clerkDev, tget, Ctx.reset]
  split <;> rfl
/-! ### Boot, security, faults, scripts and surveys -/

/-- A device in boot stage `n` with straps as given. -/
def booting (n : Nat) (straps : BitVec 8) : State :=
  { State.reset with boot := { State.reset.boot with stage := n, straps := straps, porLow := false } }

/-- What a good flash answers. -/
def flash : BootRead := { answers := true, log2 := 25, quad := true, calLog := [], calBad := 0 }

/-- SEC_ARM in force; no slot of the flash holds an image; the four roots programmed, a CSP image under root 3 in force. -/
def armedDev : State :=
  { ready with
    csp := { ready.csp with meas := some 5 },
    boot := { ready.boot with armedUntil := some 8000, programmed := 0xF, cspRoot := 3, norErased := [3, 11, 75] } }

theorem witness_ResetsBootImagesAndSecurity :
    (0xDE56 : BitVec 16) ≠ 0xDE57 ∧ ready.boot.thermLatched = false ∧ ready.boot.porLow = false ∧ (booting 0 0).boot.stage = 0
      ∧ { flash with answers := false }.answers = false ∧ flash.answers = true ∧ (booting 0 6).bootMode = 1
      ∧ (booting 0 0x0A).bootMode = 2 ∧ (booting 0 0).boot.porLow = false ∧ (booting 1 0).boot.stage ≤ 1
      ∧ (booting 2 0).boot.stage = 2 ∧ armedDev.boot.armedUntil = some 8000 ∧ armedDev.now ≤ 8000 ∧ ready.boot.armedUntil = none
      ∧ (2 : Fin 4).val ≥ 2 ∧ ready.boot.programmed.getLsbD 2 = false ∧ armedDev.boot.programmed.getLsbD 3 = true := by decide +kernel

theorem witness_ResetsBootImagesAndSecurity_roots :
    armedDev.rootInUse 2 = false ∧ 2 ≤ (List.range 4).countP (fun j => armedDev.rootGood j && j != 2) ∧ armedDev.rootInUse 3 = true
      ∧ armedDev.versionBelow 1 = true ∧ ({ armedDev with csp := { armedDev.csp with version := 64 } } : State).versionBelow 64 = false
      ∧ armedDev.boot.rollback < 64 := by decide +kernel

/-- What an image's checks read lies in its bytes. -/
theorem verifies_congr (s : State) (rd rd' : ImageReader) (kind : Nat) (h : ∀ off k, off + k ≤ 832 → rd off k = rd' off k)
    (hp : sgPayload rd' = 0) : s.verifies rd kind = s.verifies rd' kind := by
  have hp' : sgPayload rd = 0 := (h 12 4 (by decide)).trans hp
  have hk : sgKind rd = sgKind rd' := h 4 1 (by decide)
  have hr : sgRoot rd = sgRoot rd' := h 6 1 (by decide)
  have hv : sgVersion rd = sgVersion rd' := h 8 4 (by decide)
  simp only [State.verifies, imageBytes, hp, hp', hk, hr, hv, h 0 4 (by decide), h 5 1 (by decide), h 64 384 (by decide),
    h 448 384 (by decide), h 0 448 (by decide), h 16 32 (by decide), h 832 0 (by decide)]

/-- The CSP image read straight from its number. -/
def cspReader : ImageReader := fun off k => cspNum / 256 ^ off % 256 ^ k

theorem cspReader_payload : sgPayload cspReader = 0 := by decide +kernel

theorem cspReader_verifies : imaged.verifies cspReader 1 = true := by decide +kernel

theorem imaged_cspReader (off k : Nat) (h : off + k ≤ 832) : hostImage imaged.host 0x2000 off k = cspReader off k :=
  imaged_reads off k h

theorem imaged_verifies : imaged.verifies (hostImage imaged.host 0x2000) 1 = true :=
  (verifies_congr _ _ _ _ imaged_cspReader cspReader_payload).trans cspReader_verifies

theorem sgPayload_congr (rd rd' : ImageReader) (h : ∀ off k, off + k ≤ 832 → rd off k = rd' off k) :
    sgPayload rd = sgPayload rd' := h 12 4 (by decide)

theorem imaged_bytes : sgBytes (hostImage imaged.host 0x2000) = 832 := by
  have e := (sgPayload_congr _ _ imaged_cspReader).trans cspReader_payload
  rw [sgBytes, e]

theorem witness_ResetsBootImagesAndSecurity_images :
    Accepts imaged h0 (.imageStage 1 832 0x2000) ∧ imaged.so.tasks = [] ∧ h0.quiet = false ∧ imaged.csp.activatePending = none
      ∧ sgBytes (hostImage imaged.host 0x2000) = 832 ∧ imaged.verifies (hostImage imaged.host 0x2000) 1 = true
      ∧ Accepts imaged h0 (.imageStage 1 831 0x2000) ∧ Accepts ready h0 (.imageStage 1 832 0)
      ∧ sgBytes (hostImage ready.host 0) = 832 ∧ ready.verifies (hostImage ready.host 0) 1 = false
      ∧ Accepts imaged h0 (.imageActivate 1) ∧ tget none imaged.boot.staged 1 = none := by
  refine ⟨by unfold Accepts; decide +kernel, rfl, rfl, rfl, imaged_bytes, imaged_verifies, by unfold Accepts; decide +kernel,
    by unfold Accepts; decide +kernel, by decide +kernel, by decide +kernel, by unfold Accepts; decide +kernel, rfl⟩

/-- A staged image is what host memory still holds: 64 bytes of zero. -/
def zeros : StagedImage :=
  { sha := sha256Num (List.replicate 64 0), addr := 0x2000, bytes := 64, kind := 2, version := 1, root := 2 }

def stagedDev : State := { ready with boot := { ready.boot with staged := [(1, some zeros)] } }

theorem witness_ResetsBootImagesAndSecurity_activate :
    Accepts stagedDev h0 (.imageActivate 1) ∧ stagedDev.so.tasks = [] ∧ stagedDev.csp.activatePending = none
      ∧ tget none stagedDev.boot.staged 1 = some zeros ∧ stagedDev.stillStaged zeros = true ∧ stagedDev.csp.st ≠ .running := by
  unfold Accepts; decide +kernel

theorem witness_ResetsBootImagesAndSecurity_rest :
    Accepts ready h0 (.nvmRead 1 0xFFFF 1 0) ∧ 0xFFFF + 1 ≤ (ready.norRegion 1).2 ∧ Accepts ready h0 (.nvmWrite 1 0x10000 1 0)
      ∧ (ready.norRegion 1).2 < 0x10000 + 1 ∧ Accepts ready h0 (.nvmWrite 0 0 1 0) ∧ ready.norProtected 0 = true
      ∧ 0 + 1 ≤ (ready.norRegion 0).2 ∧ Accepts { ready with boot := { ready.boot with norLog2 := 25 } } h0 (.nvmWrite 9 0 1 0)
      ∧ 0 + 1 ≤ (({ ready with boot := { ready.boot with norLog2 := 25 } } : State).norRegion 9).2 ∧ ready.norProtected 9 = false
      ∧ Accepts ready h0 (.attest 5 0 639) ∧ Accepts ready h0 (.attest 5 0 640) ∧ ready.so.tasks = [] ∧ h0.quiet = false
      ∧ { ready.boot with thermLatched := true }.thermLatched = true := by
  unfold Accepts; decide +kernel

theorem witness_ActivateNeedsAStagedImage :
    Accepts ready h0 (.imageActivate 2) ∧ ready.imageBusy 2 = false ∧ tget none ready.boot.staged 2 = none ∧ ready.so.tasks = []
      ∧ ready.imageBusy 0 = false ∧ Accepts ready h0 (.imageStage 0 832 0) ∧ sgBytes (hostImage ready.host 0) = 832
      ∧ ready.boot.thermLatched = false ∧ ready.boot.porLow = false := by
  unfold Accepts; decide +kernel

/-- One line in the poison log, at its last index. -/
def poisonedDev : State := { ready with mem := { ready.mem with poisonLog := [2 ^ 40 - 1] } }

theorem witness_PoisonLogKeepsNewestFirst :
    ready.boot.stage = 5 ∧ ready.boot.porLow = false
      ∧ poisonedDev.mem.poisonLog[poisonedDev.reg 0x5074 % 256]? = some (2 ^ 40 - 1) ∧ 2 ^ 40 - 1 < 2 ^ 40
      ∧ (poisonedDev.setReg 0x5074 255).mem.poisonLog[(poisonedDev.setReg 0x5074 255).reg 0x5074 % 256]? = none := by decide +kernel

/-- A source as given. -/
def withSrc (n : Nat) (x : Src) : State := ready.setSrc n x

/-- A survey of channel 0 at its first point. -/
def survey : Survey :=
  { task := 0, levels := 1, levelMask := false, dwell := 1, channels := 1, oFirst := 0, oLast := 1, oStep := 1, settle := 0,
    bufAddr := 0x1000, paramAddr := 0, level := 0, offset := 0, points := 0, counting := true, waiting := 0, settleDue := none }

theorem witness_FaultsScriptsAndSurveys :
    (ready.src 95).sticky = false ∧ (ready.src 95).active = false ∧ 1 ≤ ready.reaction 77
      ∧ ((withSrc 95 { Src.reset with sticky := true, active := true }).src 95).active = true ∧ ready.quietTicks 95 ≠ 0
      ∧ (95 : Nat) ≠ 79 ∧ faultClass 77 = 4 ∧ faultClass 95 ≠ 4 ∧ portHeld Group.reset = false
      ∧ nextClaim [(2, 0)] = some (2, 0) ∧ portHeld { Group.reset with peBusy := true } = true
      ∧ { Group.reset with peBusy := true, peSlot := 2 }.peSlot ≠ 3 := by decide +kernel

/-- A masking survey in its level step, and the port that has it. -/
def maskingSurvey : Survey := { survey with levelMask := true, counting := false, waiting := 1 }

def stepping : State :=
  ((siteDev plain).modSite 0 (fun x => { x with surveys := [maskingSurvey] })).setGroup 0
    { Group.reset with peBusy := true, peSlot := 3, peParam := 2 ^ 16, peQueue := [(3, 2 ^ 16)] }

theorem witness_FaultsScriptsAndSurveys_scripts :
    ready.levelHolds 95 = false ∧ ({ ready with boot := { ready.boot with thermTemp := 100 } } : State).levelHolds 91 = true ∧ ready.phaseClaims 15 = false
      ∧ (ready.setGroup 15 { Group.reset with queue := [⟨1, false, false, none⟩] }).phaseClaims 15 = true
      ∧ nextClaim (stepping.group 0).peQueue = some (3, 2 ^ 16) ∧ fld (2 ^ 16) 16 8 ≠ 0 ∧ (stepping.group 0).peSlot = 3
      ∧ stepping.allSurveys.find? (fun kv => kv.2.task == 2 ^ 16 / 2 ^ 24) = some (0, maskingSurvey) ∧ maskingSurvey.levelMask = true
      ∧ (stepping.group 0).peBusy = true := by decide +kernel

/-- Site 0 in RUN with an offset sampler on channel 0 (ES). -/
def sampling : State :=
  ({ trainedDev with cfg := { trainedDev.cfg with committed := [(itemKey 4 0, 1 + 2 ^ 256 * 320000 + 2 ^ 320 * 7 + 2 ^ 336 * (2 ^ 112 - 1)),
    (itemKey 6 0, 0x800), (itemKey 6 32, 0x800), (itemKey 7 7, plain)] } } : State).modSite 0 (inState .run plain)

theorem witness_FaultsScriptsAndSurveys_surveys :
    Accepts sampling h0 (.eyeSurvey 0 1 false 1 1 0 0 1 0 0 0) ∧ sampling.gridFits 0 1 0 0 1 = true
      ∧ Accepts sampling h0 (.eyeSurvey 0 1 false 1 1 0 1 1 0 0 0) ∧ sampling.gridFits 0 1 0 1 1 = false
      ∧ sampling.so.tasks = [] ∧ h0.quiet = false ∧ (sampling.site 0).st = .run ∧ siteOn sampling.cv 0 mST = false
      ∧ (∀ c < 128, Nat.testBit 1 c = true → (sampling.members 0).testBit c = true ∧ chanOn sampling.cv 0 c mES = true
          ∧ surveyOf (sampling.site 0) c = none)
      ∧ Accepts (siteDev plain) h0 (.eyeSurvey 0 1 false 1 1 0 0 1 0 0 0) ∧ (siteDev plain).gridFits 0 1 0 0 1 = true
      ∧ ((siteDev plain).site 0).st ≠ .run := by
  unfold Accepts; decide +kernel

theorem witness_FaultsScriptsAndSurveys_points :
    let v := { survey with counting := false, settleDue := some 5 }
    let s := (siteDev plain).modSite 0 (fun x => { x with surveys := [survey] })
    let s := s.modChan 0 (fun x => { x with svCompared := 1 })
    v.counting = false ∧ v.waiting = 0 ∧ v.settleDue = some 5 ∧ (s.site 0).surveys = [survey] ∧ ((s.site 0).st == .run) = false
      ∧ s.pointDone survey = true ∧ survey.offset + (survey.oStep : Int) ≤ survey.oLast ∧ survey.points < allPoints survey
      ∧ (∀ c ∈ surveyChans survey, (s.chan c).svMismatch < 2 ^ 32) := by decide +kernel

/-! ### Single steps against the spec's numbers -/

/-- The check value of CRC-32C over the digits 1 to 9, as the literature gives it (R73 names the polynomial). -/
theorem test_crc32c_digits : crc32c [0x31, 0x32, 0x33, 0x34, 0x35, 0x36, 0x37, 0x38, 0x39] = 0xE3069283 := by decide +kernel

/-- SHA-256 of "abc", as FIPS 180-4 gives it. -/
theorem test_sha256_abc : ofBytes (sha256 [0x61, 0x62, 0x63]).reverse
    = 0xBA7816BF8F01CFEA414140DE5DAE2223B00361A396177A9CB410FF61F20015AD := by decide +kernel

/-- Chapter 21, "one field out of range": 0x1106_0A08 written over 0x0606_0606 (of ring set 1). -/
theorem test_lengths_field_out_of_range :
    (after ready (.registerWrite 0 0x3070 4 0x11060A08)).reg 0x3070 = 0x06060A08 := by decide +kernel

/-- Chapter 16, "loopback trims of channel 17": CAL_LB_MIN 12,000, CAL_LB_WIDTH 320, CAL_LB_SPLIT 512. -/
def loopbackDev : State :=
  (((ready.setReg 0x9018 12000).setReg 0x901C 320).setReg 0x9020 512).setTrim 2176 540 |>.setTrim 2178 498 |>.setTrim 2184 521

theorem test_loopback_trims :
    (let t := loopbackDev.loopbackTrims (17, false, 50123776, 49567744)
     (t.trim 2176, t.trim 2178, t.trim 2184)) = (463, 556, 512) := by decide +kernel

/-- Chapter 14, "a match group inside one subtree": M = 159 ns gives H = 326 ns. -/
theorem test_combiner_hold :
    ({ ready with tree := { ready.tree with nodes := [⟨9, 0, 4, 1268800, 5, 0, 1, true⟩, ⟨5, 0, 2, 0, 1, 0, 1, true⟩] } } : State).combinerH 0
      = 2608000 := by decide +kernel

/-- The same example and chapter 4's: D = 684 at P = 4,000 TU with that H, 832 with 400 ns, 52 for a trigger at P = 2,500 TU. -/
theorem test_decision_distance :
    decisionDist 2608000 4000 20 = 684 ∧ decisionDist 3200000 4000 20 = 832 ∧ decisionDist 3200000 2500 2 = 52 := by decide +kernel

/-! ### The ball grid (R468 to R471) -/

/-- The worked examples of 22_balls_electrical_package.md, and the first balls that Table 22.5 gives for the centre's lists. -/
theorem test_balls :
    ballAt 57 32 = .chan 17 (.dh false) ∧ ballAt 47 32 = .chan 17 (.cl true) ∧ channelBall 17 1 = (57, 32)
      ∧ ballAt 19 15 = .centre (.pcieTx 0 false) ∧ ballAt 19 16 = .centre (.pcieTx 0 true) ∧ ballAt 19 17 = .vss
      ∧ ballAt 47 1 = .mem 0 (.dqs 0 0 false) ∧ ballAt 20 42 = .centre (.refclk false) ∧ ballAt 23 39 = .centre (.peSclk 0)
      ∧ ballAt 28 33 = .centre .dimmScl ∧ ballAt 30 15 = .power .core ∧ ballAt 43 35 = .reserved := by decide +kernel

/-- Table 22.6: 997 VSS and 438 power balls. -/
theorem test_ball_counts :
    (List.range 3364).countP (fun n => ballAt (n / 58 + 1) (n % 58 + 1) == .vss) = 997
      ∧ (List.range 3364).countP (fun n => match ballAt (n / 58 + 1) (n % 58 + 1) with | .power _ => true | _ => false) = 438 := by
  decide +kernel

/-- A channel's line and its block agree, at every depth of every channel. -/
theorem test_channel_balls :
    (List.range 128).all (fun c => (List.range 12).all (fun i =>
      channelAt (channelBall c i).1 (channelBall c i).2 == some (c, i))) = true := by decide +kernel

/-! ### Figures, level sources and the log over a reset -/

/-- A calibrated group under BC. -/
def figureDev (x : Group) : State :=
  ({ ready with cfg := { ready.cfg with committed := setItem [] 6 160 (2 ^ mBC) } } : State).setGroup 0 { x with phases := 1 }

/-- Table 2.10 adds up to 2.48 ps, 2.98 ps for a bit edge, 3.48 ps on the thermal model (R51), in 0.5 fs; a STALE group has no bound. -/
theorem test_figures :
    (figureDev Group.reset).placementTerms 0 false = some 4960 ∧ (figureDev Group.reset).placementTerms 0 true = some 5960
      ∧ (figureDev { Group.reset with replicaOut := true }).placementTerms 0 false = some 6960
      ∧ (figureDev { Group.reset with isStale := true }).placementTerms 0 false = none := by decide +kernel

/-- A sensor that still does not answer asserts source 48 anew after its sticky bit was cleared (R419, R425). -/
def deafDimm : State :=
  let s : State := { trainedDev with now := 10 * tuPerTick + 5, mem := { trainedDev.mem with misses := tset 0 [] 3 3 } }
  s.setSrc 48 { s.src 48 with active := true, lastAt := 0 }

theorem test_level_recurs :
    (deafDimm.recurLevels.src 48).sticky = true ∧ (deafDimm.recurLevels.src 48).lastAt = 10 * tuPerTick
      ∧ deafDimm.recurLevels.now = deafDimm.now ∧ (deafDimm.srcNow 48).lastAt = 10 * tuPerTick
      ∧ (deafDimm.recurLevels.src 48).detail = 1 + 2 ^ 8 := by decide +kernel

end Sys2Proof.Tests
end

/-! The poison log (R353): what enters it, what leaves it alone, and the registers that read it. -/

namespace Sys2Proof.Machine

/-! ### Poisonings and the log -/

theorem mem_of_sameEvents {s t : State} (h : SameButEvents s t) : t.mem = s.mem := by
  unfold SameButEvents at h
  rw [h]

@[simp] theorem memEvent_mem (s : State) (c r detail : Nat) : (s.memEvent c r detail).mem = s.mem :=
  mem_of_sameEvents (sameEvents_event s 0x000D (r + 4 * c) detail)

@[simp] theorem poison_poisonLog (s : State) (l : Nat) : (s.poison l).mem.poisonLog = l :: s.mem.poisonLog.take 255 := by
  rw [State.poison, memEvent_mem, List.take_succ_cons]

@[simp] theorem touchBank_poisonLog (s : State) (l : Nat) : (s.touchBank l).mem.poisonLog = s.mem.poisonLog := rfl

@[simp] theorem writeLine_poisonLog (s : State) (l : Nat) (d : BitVec 512) :
    (s.writeLine l d).mem.poisonLog = s.mem.poisonLog := by
  unfold State.writeLine
  dsimp only
  split <;> exact touchBank_poisonLog s l

/-! ### Fields of a log entry -/

theorem fld_zero_lo (v w : Nat) : fld v 0 w = v % 2 ^ w := rfl

/-- VALID, at bit 63, stands outside the low half. -/
theorem half_low_valid (l : Nat) : half (l + 2 ^ 63) 0x5078 = l % 2 ^ 32 := by
  rw [half, if_pos (by decide), fld_zero_lo]
  omega

/-- An address of 40 bits leaves bit 31 of the high half to VALID. -/
theorem half_high_valid {l : Nat} (h : l < 2 ^ 40) : half (l + 2 ^ 63) 0x507C = l / 2 ^ 32 + 2 ^ 31 := by
  rw [half, if_neg (by decide), fld, Nat.shiftRight_eq_div_pow]
  omega

/-! ### Reads of MC_POISON_ADDR -/

theorem regValue_mc (s : State) {a : Nat} (h : a / 0x1000 = 5) : s.regValue a = s.mcValue a := by
  simp only [State.regValue, h]

/-- No count is brought up to the moment of a read of the memory controller's page. -/
theorem settleFor_mc (s : State) {a : Nat} (h : a / 0x1000 = 5) : s.settleFor a = s := by
  rw [State.settleFor, if_neg (by omega), if_neg (by omega), if_neg (by omega)]

theorem readAct_value (s : State) (a : Nat) : (s.readAct a).2 = (s.settleFor a).regValue a := rfl

theorem readAct_mc (s : State) {a : Nat} (h : a / 0x1000 = 5) : (s.readAct a).2 = s.mcValue a := by
  rw [readAct_value, settleFor_mc s h, regValue_mc s h]

theorem mcValue_poisonAddr_some {s : State} {a l : Nat} (ha : a = 0x5078 ∨ a = 0x507C)
    (h : s.mem.poisonLog[s.reg 0x5074 % 256]? = some l) : s.mcValue a = half (l + 2 ^ 63) a := by
  rcases ha with rfl | rfl <;> simp [State.mcValue, fld_zero_lo, h]

theorem mcValue_poisonAddr_none {s : State} {a : Nat} (ha : a = 0x5078 ∨ a = 0x507C)
    (h : s.mem.poisonLog[s.reg 0x5074 % 256]? = none) : s.mcValue a = 0 := by
  rcases ha with rfl | rfl <;> simp [State.mcValue, fld_zero_lo, h]

/-! ### Writes of MC_POISON_IDX -/

/-- In READY the PF reaches every address of its window (R433). -/
theorem windowAddr_pf_ready {s : State} (a : Nat) (hst : s.boot.stage = 5) (hpor : s.boot.porLow = false) :
    s.windowAddr 0 a = some a := by
  simp [State.windowAddr, State.exposedPf, hst, hpor]

theorem busWrite_poisonIdx (s : State) (v : Nat) :
    s.busWrite 0x5074 v = (s.setHeld 5 none).setReg 0x5074 (v % 256) := rfl

/-- A write of MC_POISON_IDX by the PF in READY drops the block's held low half and takes the index from the low 8 bits. -/
theorem exec_write_poisonIdx {s : State} (v : BitVec 64) (hst : s.boot.stage = 5) (hpor : s.boot.porLow = false) :
    exec (.registerWrite 0 0x5074 4 v) s = .next ((s.setHeld 5 none).setReg 0x5074 (v.toNat % 256)) := by
  have hw : s.hostWrite4 0 0x5074 (v.toNat % 2 ^ 32) = (s.setHeld 5 none).setReg 0x5074 (v.toNat % 2 ^ 32 % 256) := by
    rw [State.hostWrite4, windowAddr_pf_ready _ hst hpor, ← busWrite_poisonIdx]
    rfl
  have hm : v.toNat % 2 ^ 32 % 256 = v.toNat % 256 := Nat.mod_mod_of_dvd _ (by decide)
  rw [← hm, ← hw]
  rfl

/-- Settles O60: the log's two operations, one write of the index, and the value of the address register by whether the entry at the
index is there (R353). -/
theorem poisonLogKeepsNewestFirst : Obligations.PoisonLogKeepsNewestFirst := by
  intro s
  refine ⟨poison_poisonLog s, writeLine_poisonLog s, fun v hst hpor => ?_, fun l h hl => ⟨?_, ?_⟩, fun h => ?_⟩
  · refine ⟨_, exec_write_poisonIdx v hst hpor, ?_, rfl⟩
    rw [setReg_reg_same]
    omega
  · rw [readAct_mc s rfl, mcValue_poisonAddr_some (.inl rfl) h, half_low_valid]
  · rw [readAct_mc s rfl, mcValue_poisonAddr_some (.inr rfl) h, half_high_valid hl]
  · rw [readAct_mc s rfl, mcValue_poisonAddr_none (.inr rfl) h, Nat.zero_testBit]

end Sys2Proof.Machine

/-! Staged images (R439 to R441): what may change them. A completion leaves boot's state alone, a fault changes of it STATUS and
ALERT_N at most, and a device reset clears what was staged. -/

namespace Sys2Proof.Machine

/-! ### Tasks that come and go leave boot's state alone -/

@[simp] theorem addTask_boot (s : State) (t : Machine.Task) : (s.addTask t).boot = s.boot := by rw [addTask_frame]
@[simp] theorem addTask_clerk (s : State) (t : Machine.Task) : (s.addTask t).clerk = s.clerk := by rw [addTask_frame]
@[simp] theorem addTask_csp (s : State) (t : Machine.Task) : (s.addTask t).csp = s.csp := by rw [addTask_frame]
@[simp] theorem entryWritten_boot (s : State) (k r : Nat) (b : Bool) : (s.entryWritten k r b).boot = s.boot := by
  rw [entryWritten_frame]
@[simp] theorem writeCompletion_boot (s : State) (t : Machine.Task) (st r : Nat) : (s.writeCompletion t st r).boot = s.boot := by
  rw [writeCompletion_frame]
@[simp] theorem writeBack_boot (s : State) (k : Nat) : (s.writeBack k).boot = s.boot := rfl
@[simp] theorem refresh_boot (s : State) : s.refresh.boot = s.boot := rfl
@[simp] theorem pauseCheck_boot (s : State) : s.pauseCheck.boot = s.boot := by rw [pauseCheck_frame]

/-- A fold whose every turn leaves boot's state alone does so too. -/
theorem foldl_boot {α : Type} (f : State → α → State) (hf : ∀ s a, (f s a).boot = s.boot) (l : List α) (s : State) :
    (l.foldl f s).boot = s.boot :=
  List.foldlRecOn (motive := fun t => t.boot = s.boot) l f rfl (fun t ht a _ => (hf t a).trans ht)

@[simp] theorem endTask_boot (s : State) (t : Machine.Task) (st r : Nat) : (s.endTask t st r).boot = s.boot := by
  unfold State.endTask
  dsimp only
  repeat' split
  all_goals simp

@[simp] theorem settleCancels_boot (s : State) (id : Nat) : (s.settleCancels id).boot = s.boot :=
  foldl_boot _ (fun s t => endTask_boot s t _ _) _ _

@[simp] theorem complete_boot (s : State) (t : Machine.Task) (st r : Nat) : (s.complete t st r).boot = s.boot := by
  simp [State.complete]

/-! ### Faults leave the staged images alone -/

@[simp] theorem mark_boot (s : State) (stream source t : Nat) : (s.mark stream source t).boot = s.boot := by
  unfold State.mark State.devPush
  dsimp only
  repeat' split
  all_goals rfl

@[simp] theorem syncSleep_boot (s : State) : s.syncSleep.boot = s.boot := by
  refine foldl_boot _ (fun s g => ?_) _ _
  dsimp only
  repeat' split
  all_goals rfl

@[simp] theorem noteStatus_staged (s : State) : s.noteStatus.boot.staged = s.boot.staged := by
  unfold State.noteStatus
  split <;> rfl

@[simp] theorem writeEvent_boot (s : State) (code arg detail : Nat) : (s.writeEvent code arg detail).boot = s.boot := by
  simp [State.writeEvent]

@[simp] theorem flushLost_boot (s : State) : s.flushLost.boot = s.boot := by
  unfold State.flushLost
  split
  · exact writeEvent_boot s _ _ _
  · rfl

@[simp] theorem tryEvent_boot (s : State) (code arg detail : Nat) : (s.tryEvent code arg detail).1.boot = s.boot := by
  unfold State.tryEvent
  dsimp only
  split <;> simp

theorem ite_boot {c : Prop} [Decidable c] {s a b : State} (ha : a.boot = s.boot) (hb : b.boot = s.boot) :
    (if c then a else b).boot = s.boot := by
  split
  · exact ha
  · exact hb

/-- Of one assertion's steps only the look at STATUS touches boot's state. -/
@[simp] theorem assertRaw_staged (s : State) (n d : Nat) (inj : Bool) : (s.assertRaw n d inj).1.boot.staged = s.boot.staged := by
  unfold State.assertRaw
  extract_lets x starts fresh running y s1 s2 e f s3 s4
  have h2 : s2.boot = s.boot := ite_boot (mark_boot s1 _ _ _) rfl
  have h3 : s3.boot = s.boot := ite_boot h2 h2
  have h4 : s4.boot.staged = s.boot.staged := by
    rw [noteStatus_staged, ite_boot ((syncSleep_boot s3).trans h3) h3]
  split
  · rw [tryEvent_boot, h4]
  · exact h4

@[simp] theorem fault_staged (s : State) (n d : Nat) : (s.fault n d).boot.staged = s.boot.staged := by
  unfold State.fault State.faultInj
  dsimp only
  split <;> simp

/-! ### The image operations -/

@[simp] theorem addTask_verifies (s : State) (t : Machine.Task) (rd : ImageReader) (kind : Nat) :
    (s.addTask t).verifies rd kind = s.verifies rd kind := by
  rw [addTask_frame]
  rfl

@[simp] theorem addTask_imageBusy (s : State) (t : Machine.Task) (kind : Nat) : (s.addTask t).imageBusy kind = s.imageBusy kind := by
  simp [State.imageBusy]

@[simp] theorem loadBank_boot (s : State) (bank : Nat) (rd : ImageReader) : (s.loadBank bank rd).boot = s.boot := by
  rw [State.loadBank]

/-- With no staged image of its kind an activation is not permitted (R441). -/
theorem activateImage_unstaged {s : State} {kind : Nat} (t : Machine.Task) (h : tget none s.boot.staged kind = none) :
    s.activateImage t kind = s.complete t 4 0 := by
  rw [State.activateImage, h]

/-- Staging a container of its length leaves as staged of its kind the new image where it verifies, and nothing where it does not
(R440, R441; the failing case is the model's own reading, notes/assumptions/41.md). -/
theorem stageImage_staged (s : State) (t : Machine.Task) {kind bytes addr : Nat} (hb : 832 ≤ bytes)
    (hl : sgBytes (hostImage s.host addr) = bytes) :
    tget none (s.stageImage t kind bytes addr).boot.staged kind
      = if s.verifies (hostImage s.host addr) kind then some (stagedOf (hostImage s.host addr) addr) else none := by
  unfold State.stageImage
  extract_lets rd inactive good _ recorded loaded _ verified _ emptied
  have hr : tget none recorded.boot.staged kind = if good then some (stagedOf rd addr) else none := tget_tset_same ..
  have hv : verified.boot = recorded.boot := ite_boot (loadBank_boot recorded inactive rd) rfl
  have he : emptied.boot = recorded.boot := ite_boot rfl rfl
  rw [if_neg (by simp [rd, hl, hb]), ← hr]
  split
  · rw [complete_boot, hv]
  · rw [complete_boot, State.imageRefused, fault_staged, he]

/-- An accepted IMAGE_ACTIVATE is at its engine where no activation of its kind is under way. -/
theorem exec_imageActivate {s : State} {h : Hdr} {kind : Nat} (ha : Accepts s h (.imageActivate kind)) (hb : s.imageBusy kind = false) :
    exec (.imageActivate h kind) s
      = .next ((s.addTask (taskOf s h (.imageActivate kind))).activateImage (taskOf s h (.imageActivate kind)) kind) := by
  show Host.Outcome.next (serve h (.imageActivate kind) (fun t s => s.imageTask t) s) = _
  rw [serve_accepts ha]
  simp [State.imageTask, taskOf, State.newTask, hb]

/-- An accepted IMAGE_STAGE is at its engine where no activation of its kind is under way. -/
theorem exec_imageStage {s : State} {h : Hdr} {kind bytes addr : Nat} (ha : Accepts s h (.imageStage kind bytes addr))
    (hb : s.imageBusy kind = false) :
    exec (.imageStage h kind bytes addr) s
      = .next ((s.addTask (taskOf s h (.imageStage kind bytes addr))).stageImage (taskOf s h (.imageStage kind bytes addr))
          kind bytes addr) := by
  show Host.Outcome.next (serve h (.imageStage kind bytes addr) (fun t s => s.imageTask t) s) = _
  rw [serve_accepts ha]
  simp [State.imageTask, taskOf, State.newTask, hb]

/-! ### The device reset -/

theorem cleared_staged (s : State) : s.cleared.boot.staged = [] := rfl

@[simp] theorem couModeReset_boot (s : State) : s.couModeReset.boot = s.boot := ite_boot (setReg_boot s _ _) rfl

/-- SYS_RESET.DEVICE with its key clears the staged images (R430, R441). -/
theorem exec_deviceReset_staged {s : State} (ht : s.boot.thermLatched = false) (hp : s.boot.porLow = false) :
    ∃ t, exec (.sysResetDevice 0xDE57 true) s = .next t ∧ t.boot.staged = [] := by
  show ∃ t, execSysResetDevice 0xDE57 true s = .next t ∧ t.boot.staged = []
  rw [execSysResetDevice, if_neg (by simp [ht, hp])]
  refine ⟨_, rfl, ?_⟩
  rw [noteStatus_staged, couModeReset_boot]
  exact cleared_staged s

/-- Settles O59: the two image operations at their engines, and the reset (R441). -/
theorem activateNeedsAStagedImage : Obligations.ActivateNeedsAStagedImage := by
  intro s
  refine ⟨fun h kind hs ha hb hn => ?_, fun h kind bytes addr _ ha hb h832 hl => ?_, fun ht hp => ?_⟩
  · refine ⟨_, exec_imageActivate ha hb, ?_⟩
    rw [activateImage_unstaged _ (by rwa [addTask_boot])]
    exact addTask_complete hs (.inr (by decide))
  · refine ⟨_, exec_imageStage ha hb, ?_⟩
    rw [stageImage_staged _ _ h832 (by rwa [addTask_host]), addTask_verifies, addTask_host]
  · obtain ⟨t, he, hst⟩ := exec_deviceReset_staged ht hp
    exact ⟨t, he, fun kind => by rw [hst]; rfl⟩

end Sys2Proof.Machine
